-- ==== Sys2Proof/Word.lean ====
section
/-! DEFINITION. The word types of the Cubo link engine: a byte, the 16-bit checksum word, a cipher block and a key
(spec 00 R7, R8; 42 R141). Only types stand here; every operation on them is in a file under Machine/. -/

namespace Sys2Proof

/-- An unsigned integer 0 to 255 (spec 00 R7). -/
abbrev Byte := BitVec 8

/-- A 16-bit unsigned value: the checksum register (spec 10 R21), a transaction word (spec 30 R70). -/
abbrev Word16 := BitVec 16

/-- A cipher block: exactly 16 bytes, lowest buffer index first (spec 42 R140, R141; 20 R57). -/
abbrev Block := Vector Byte 16

/-- A cipher key: exactly 16 bytes, `key[0]` the first byte the host wrote (spec 10 R26; 20 R57). -/
abbrev Key := Vector Byte 16

end Sys2Proof
end

