-- ==== Sys2Proof/Config.lean ====
section
/-! DEFINITION. The implementation parameters of spec 00 R4: the constants that the source or a decision fixes, and
the two that are open, `CIPHER` and `BASE`, as opaque constants with no body. -/

namespace Sys2Proof.Config

/-- `CRC_POLY`, the reflected form of 0x8005 (spec 00 R4, 41 R120). -/
abbrev crcPoly : Word16 := 0xA001

/-- `CRC_INIT` (spec 00 R4, 41 R121). -/
abbrev crcInit : Word16 := 0xFFFF

/-- `BLOCK`, the cipher's block size in bytes (spec 42 R141). -/
abbrev blockBytes : Nat := 16

/-- `KEY_BYTES`, the key size in bytes (spec 42 R141). -/
abbrev keyBytes : Nat := 16

/-- `HEADER`, the sentinel of every valid frame (spec 43 R160). -/
abbrev header : Byte := 0xFE

/-- `BUF_CAP`, the capacity of the message buffer: 17 blocks (spec 10 R24). -/
abbrev bufCap : Nat := 272

/-- The longest body the one-byte length field can express (spec 00 R4 `LEN_FIELD`, 43 R161). -/
abbrev maxBody : Nat := 253

/-- OPEN parameter `CIPHER` (spec 00 R4, 42 R140): for each key a permutation of the 2^128 blocks, `E(k, .)`, with
`D(k, .)` its inverse. R140 gives the pair (E, D) one law, `D(k, E(k, p)) = p`, and derives from it that each `E(k, .)`
is a permutation and `D(k, .)` its inverse, so this type holds exactly the pairs the rule allows.
It has no body: nothing can evaluate it, and a theorem about it holds for every cipher.
DEDUCED, safe, log 1. -/
opaque CIPHER : Key → Equiv.Perm Block

/-- `E(k, p)`: one block enciphered (spec 42 R140). -/
def E (k : Key) (p : Block) : Block := CIPHER k p

/-- `D(k, c)`: one block deciphered (spec 42 R140). -/
def D (k : Key) (c : Block) : Block := (CIPHER k).symm c

/-- OPEN parameter `BASE` (spec 00 R4, 20 R50): where the platform places register address 0x0. The block sees only
the 4-bit offset and no rule depends on it. DESIGN CHOICE, safe, log 2. -/
opaque BASE : Nat

/-- The platform's address of a register (spec 20 R50). -/
def platformAddr (addr : BitVec 4) : Nat := BASE + addr.toNat

/-- The 4-bit offset the block sees of a platform address: none outside the 16 addresses (spec 20 R50). -/
def offsetOf (a : Nat) : Option (BitVec 4) :=
  if BASE ≤ a ∧ a < BASE + 16 then some (BitVec.ofNat 4 (a - BASE)) else none

end Sys2Proof.Config
end

