-- ==== Sys2Proof/Syntax.lean ====
section
/-! DEFINITION. The syntax: the bus transaction (spec 20 R52), what the host can present to the block, and `Instr`, one
constructor per row of spec/opcode_table.json. -/

namespace Sys2Proof

/-- A bus transaction `(we, addr, wdata)`: `we` is true for a write; `wdata` is ignored on a read (spec 20 R52). -/
structure Transaction where
  we    : Bool
  addr  : BitVec 4
  wdata : Byte
  deriving DecidableEq, Repr

/-- What the host can present to the block, one at a time: a transaction, or a pulse of the reset input
(spec 00 R6: "the host may issue any transaction at any time and may assert reset"; 70 R220, R223). -/
inductive BusInput where
  | transaction (t : Transaction)
  | hardReset
  deriving DecidableEq, Repr

/-- Why a 16-bit word of a listing is no transaction (spec 30 R70, R78): bits 15:13, which must be 0, are `bits`. -/
inductive DecodeError where
  | zeroBitsSet (bits : BitVec 3)
  deriving DecidableEq, Repr

/-- The instructions: one constructor per row of spec/opcode_table.json, in the table's order. A write carries its
data byte; a row of several illegal opcodes carries the opcode byte; a read carries nothing, since its data field is
not decoded (spec 30 R71, R72). -/
inductive Instr where
  /-- `NOP`, 0x1000 under mask 0xFFFF, spec 40 R106. -/
  | nop
  /-- `SRST`, 0x1001 under mask 0xFFFF, spec 40 R107. -/
  | srst
  /-- `BUF.CLR`, 0x1002 under mask 0xFFFF, spec 40 R110. -/
  | bufClr
  /-- `BUF.REW`, 0x1003 under mask 0xFFFF, spec 40 R111. -/
  | bufRew
  /-- `KEY.CLR`, 0x1004 under mask 0xFFFF, spec 42 R143. -/
  | keyClr
  /-- `CRC.INIT`, 0x1010 under mask 0xFFFF, spec 41 R123. -/
  | crcInit
  /-- `CRC.BUF`, 0x1011 under mask 0xFFFF, spec 41 R124. -/
  | crcBuf
  /-- `ECB.ENC`, 0x1020 under mask 0xFFFF, spec 42 R145. -/
  | ecbEnc
  /-- `ECB.DEC`, 0x1021 under mask 0xFFFF, spec 42 R146. -/
  | ecbDec
  /-- `FRM.ENC`, 0x1030 under mask 0xFFFF, spec 43 R163. -/
  | frmEnc
  /-- `FRM.DEC`, 0x1031 under mask 0xFFFF, spec 43 R164. -/
  | frmDec
  /-- `FRM.PAD`, 0x1032 under mask 0xFFFF, spec 43 R166. -/
  | frmPad
  /-- `FRM.TRIM`, 0x1033 under mask 0xFFFF, spec 43 R167. -/
  | frmTrim
  /-- `ILL.05_05`, 0x1005 under mask 0xFFFF, spec 40 R112. -/
  | ill0505
  /-- `ILL.06_07`, 0x1006 under mask 0xFFFE, spec 40 R112. -/
  | ill0607 (op : Byte)
  /-- `ILL.08_0F`, 0x1008 under mask 0xFFF8, spec 40 R112. -/
  | ill080F (op : Byte)
  /-- `ILL.12_13`, 0x1012 under mask 0xFFFE, spec 40 R112. -/
  | ill1213 (op : Byte)
  /-- `ILL.14_17`, 0x1014 under mask 0xFFFC, spec 40 R112. -/
  | ill1417 (op : Byte)
  /-- `ILL.18_1F`, 0x1018 under mask 0xFFF8, spec 40 R112. -/
  | ill181F (op : Byte)
  /-- `ILL.22_23`, 0x1022 under mask 0xFFFE, spec 40 R112. -/
  | ill2223 (op : Byte)
  /-- `ILL.24_27`, 0x1024 under mask 0xFFFC, spec 40 R112. -/
  | ill2427 (op : Byte)
  /-- `ILL.28_2F`, 0x1028 under mask 0xFFF8, spec 40 R112. -/
  | ill282F (op : Byte)
  /-- `ILL.34_37`, 0x1034 under mask 0xFFFC, spec 40 R112. -/
  | ill3437 (op : Byte)
  /-- `ILL.38_3F`, 0x1038 under mask 0xFFF8, spec 40 R112. -/
  | ill383F (op : Byte)
  /-- `ILL.40_7F`, 0x1040 under mask 0xFFC0, spec 40 R112. -/
  | ill407F (op : Byte)
  /-- `ILL.80_FF`, 0x1080 under mask 0xFF80, spec 40 R112. -/
  | ill80FF (op : Byte)
  /-- `WR_STATUS`, 0x1100 under mask 0xFF00, spec 40 R109. -/
  | wrStatus (data : Byte)
  /-- `WR_ERR`, 0x1200 under mask 0xFF00, spec 40 R95. -/
  | wrErr (data : Byte)
  /-- `WR_CRC_LO`, 0x1300 under mask 0xFF00, spec 40 R109. -/
  | wrCrcLo (data : Byte)
  /-- `WR_CRC_HI`, 0x1400 under mask 0xFF00, spec 40 R109. -/
  | wrCrcHi (data : Byte)
  /-- `WR_CRC_DIN`, 0x1500 under mask 0xFF00, spec 41 R122. -/
  | wrCrcDin (data : Byte)
  /-- `WR_BUF_DATA`, 0x1600 under mask 0xFF00, spec 40 R99. -/
  | wrBufData (data : Byte)
  /-- `WR_BLEN_LO`, 0x1700 under mask 0xFF00, spec 40 R109. -/
  | wrBlenLo (data : Byte)
  /-- `WR_BLEN_HI`, 0x1800 under mask 0xFF00, spec 40 R109. -/
  | wrBlenHi (data : Byte)
  /-- `WR_RPTR_LO`, 0x1900 under mask 0xFF00, spec 40 R109. -/
  | wrRptrLo (data : Byte)
  /-- `WR_RPTR_HI`, 0x1A00 under mask 0xFF00, spec 40 R109. -/
  | wrRptrHi (data : Byte)
  /-- `WR_KEY_DATA`, 0x1B00 under mask 0xFF00, spec 42 R142. -/
  | wrKeyData (data : Byte)
  /-- `WR_KEY_LEN`, 0x1C00 under mask 0xFF00, spec 40 R109. -/
  | wrKeyLen (data : Byte)
  /-- `WR_RSVD_D`, 0x1D00 under mask 0xFF00, spec 40 R109. -/
  | wrRsvdD (data : Byte)
  /-- `WR_RSVD_E`, 0x1E00 under mask 0xFF00, spec 40 R109. -/
  | wrRsvdE (data : Byte)
  /-- `WR_RSVD_F`, 0x1F00 under mask 0xFF00, spec 40 R109. -/
  | wrRsvdF (data : Byte)
  /-- `RD_CMD`, 0x0000 under mask 0xFF00, spec 40 R108. -/
  | rdCmd
  /-- `RD_STATUS`, 0x0100 under mask 0xFF00, spec 40 R93. -/
  | rdStatus
  /-- `RD_ERR`, 0x0200 under mask 0xFF00, spec 40 R94. -/
  | rdErr
  /-- `RD_CRC_LO`, 0x0300 under mask 0xFF00, spec 40 R96. -/
  | rdCrcLo
  /-- `RD_CRC_HI`, 0x0400 under mask 0xFF00, spec 40 R97. -/
  | rdCrcHi
  /-- `RD_CRC_DIN`, 0x0500 under mask 0xFF00, spec 40 R108. -/
  | rdCrcDin
  /-- `RD_BUF_DATA`, 0x0600 under mask 0xFF00, spec 40 R100. -/
  | rdBufData
  /-- `RD_BLEN_LO`, 0x0700 under mask 0xFF00, spec 40 R101. -/
  | rdBlenLo
  /-- `RD_BLEN_HI`, 0x0800 under mask 0xFF00, spec 40 R102. -/
  | rdBlenHi
  /-- `RD_RPTR_LO`, 0x0900 under mask 0xFF00, spec 40 R103. -/
  | rdRptrLo
  /-- `RD_RPTR_HI`, 0x0A00 under mask 0xFF00, spec 40 R104. -/
  | rdRptrHi
  /-- `RD_KEY_DATA`, 0x0B00 under mask 0xFF00, spec 40 R108. -/
  | rdKeyData
  /-- `RD_KEY_LEN`, 0x0C00 under mask 0xFF00, spec 40 R105. -/
  | rdKeyLen
  /-- `RD_RSVD_D`, 0x0D00 under mask 0xFF00, spec 40 R108. -/
  | rdRsvdD
  /-- `RD_RSVD_E`, 0x0E00 under mask 0xFF00, spec 40 R108. -/
  | rdRsvdE
  /-- `RD_RSVD_F`, 0x0F00 under mask 0xFF00, spec 40 R108. -/
  | rdRsvdF
  deriving DecidableEq, Repr

end Sys2Proof
end

