-- ==== Sys2Proof/Machine/State.lean ====
section
/-! DEFINITION. The state of the block as plain data, what can stop it, and the state right after reset (spec 10 R20 to
R36; 70 R220). The six elements of R20 are the first six fields (`blen` is the length of `buf`); the last two are the
bus: the byte the last transaction returned and what the host has presented. -/

namespace Sys2Proof.Machine

/-- The architectural state (spec 10 R20) and the bus beside it (spec 20 R52). -/
structure State where
  /-- `crc`, the checksum register (spec 10 R21). -/
  crc     : Word16
  /-- `BUF`, the message buffer, a list of `blen` bytes (spec 10 R22, R23). -/
  buf     : List Byte
  /-- `rptr`, the index of the next byte a read of `BUF_DATA` returns (spec 10 R25). -/
  rptr    : Nat
  /-- `key`, sixteen bytes (spec 10 R26). -/
  key     : Key
  /-- `key_len`, 0 to 16 exactly, 17 for more (spec 10 R27). -/
  keyLen  : Nat
  /-- `err`, eight sticky flags (spec 10 R28, R30). -/
  err     : Byte
  /-- THE MODEL'S: the byte the last transaction returned, none if it was a write (spec 20 R52; 40 R90; log 4). -/
  rdata   : Option Byte
  /-- THE MODEL'S: what the host has presented and the block has not yet taken, oldest first (spec 20 R61; log 3). -/
  pending : List BusInput
  deriving DecidableEq, Repr

/-- `blen`, the number of bytes in `BUF` (spec 10 R22: a sequence "whose length is `blen`", R23; log 9). -/
def State.blen (s : State) : Nat := s.buf.length

/-- Why the machine can stop with a fault: NO reason exists. Nobody raises one: "Nothing traps, nothing hangs, nothing
is undefined" (spec 60 R190, R203). Errors are flags of `err` in a next state. Safe (log 7). -/
inductive Fault where
  deriving DecidableEq, Repr

/-- Why an instruction can be refused. No arm of `exec` refuses: "no transaction is ever refused" (spec 40 R90). -/
inductive Refusal where
  /-- Raised by an arm of `exec` whose instruction has no meaning yet; no arm does. It would be safe. -/
  | notModelled (mnemonic : String)
  deriving DecidableEq, Repr

/-- The machine right after reset (spec 10 R35; 70 R220). The bus is idle: nothing returned yet, nothing presented
(DESIGN CHOICE, log 3 and log 4). -/
def State.reset : State where
  crc     := 0xFFFF
  buf     := []
  rptr    := 0
  key     := Vector.replicate 16 0x00
  keyLen  := 0
  err     := 0x00
  rdata   := none
  pending := []

end Sys2Proof.Machine
end

