-- ==== Sys2Proof/Machine/Operands.lean ====
section
/-! DEFINITION. Operands: the data byte, byte sequences, the split of wider values into byte registers, and the
register views a read returns (spec 00 R7, R8; 20 R54, R56; 30 R72; 10 R34; 40 R93 to R105). -/

namespace Sys2Proof.Machine

/-- `c[7:0]` (spec 00 R7). -/
def loByte (c : Word16) : Byte := c.extractLsb' 0 8

/-- `c[15:8]` (spec 00 R7). -/
def hiByte (c : Word16) : Byte := c.extractLsb' 8 8

/-- `zext_16(b)`: a data byte is unsigned, never sign-extended (spec 00 R7; 30 R72). -/
def zext16 (b : Byte) : Word16 := b.setWidth 16

/-- A 16-bit value as the byte sequence a frame carries: little-endian (spec 00 R8; 20 R54). -/
def wordBytes (c : Word16) : List Byte := [loByte c, hiByte c]

/-- `n[7:0]` of an integer (spec 40 R101, R103). -/
def natLo (n : Nat) : Byte := BitVec.ofNat 8 n

/-- A register whose bit 0 is `n[8]` and whose bits 7:1 are 0 (spec 10 R34; 40 R102, R104). -/
def natBit8 (n : Nat) : Byte := BitVec.ofNat 8 (n / 256 % 2)

/-- `S[i]` (spec 00 R8). Every rule reads inside the sequence; past its end this is 0x00 (log 6). -/
def byteAt (bytes : List Byte) (i : Nat) : Byte := bytes.getD i 0x00

/-- `S[a:b]`, the half-open subsequence (spec 00 R8). -/
def slice (bytes : List Byte) (a b : Nat) : List Byte := (bytes.take b).drop a

/-- `zeros(n)` (spec 00 R8). -/
def zeros (n : Nat) : List Byte := List.replicate n 0x00

/-- The first 16 bytes of a sequence as a block, in buffer order (spec 20 R57; 00 R11). -/
def blockOf (bytes : List Byte) : Block := Vector.ofFn fun i => byteAt bytes i

/-- The `STATUS` view: ANYERR, KEYRDY, EMPTY, FULL, ALIGNED, RDEND in bits 0 to 5, bits 7:6 are 0 (spec 40 R93). -/
def statusView (s : State) : Byte :=
  (if s.err ≠ 0x00 then 0x01 else 0x00) ||| (if s.keyLen = 16 then 0x02 else 0x00)
    ||| (if s.blen = 0 then 0x04 else 0x00) ||| (if s.blen = Config.bufCap then 0x08 else 0x00)
    ||| (if s.blen % 16 = 0 then 0x10 else 0x00) ||| (if s.rptr = s.blen then 0x20 else 0x00)

/-- The `KEY_LEN` view: `key_len` in bits 4:0, bits 7:5 are 0 (spec 40 R105; 10 R34). -/
def keyLenView (s : State) : Byte := BitVec.ofNat 8 (s.keyLen % 32)

end Sys2Proof.Machine
end

