-- ==== Sys2Proof/Machine/Crc.lean ====
section
/-! DEFINITION. The checksum arithmetic: one bit, one byte, a byte sequence (spec 41 R120, R121). -/

namespace Sys2Proof.Machine

/-- One of the 8 iterations: the lowest bit is tested before the shift; a 0 enters at bit 15 (spec 41 R120). -/
def crcBit (r : Word16) : Word16 := if r.getLsbD 0 then (r >>> 1) ^^^ Config.crcPoly else r >>> 1

/-- `n` iterations. -/
def crcBits : Nat → Word16 → Word16
  | 0, r => r
  | n + 1, r => crcBits n (crcBit r)

/-- `crc_step(c, b)`: the byte into the low byte of the register, then 8 iterations (spec 41 R120). -/
def crcStep (c : Word16) (b : Byte) : Word16 := crcBits 8 (c ^^^ zext16 b)

/-- `crc_bytes(c, S)`: the bytes folded in order from index 0 (spec 41 R121). -/
def crcBytes : Word16 → List Byte → Word16
  | c, [] => c
  | c, b :: rest => crcBytes (crcStep c b) rest

/-- `checksum(S)` (spec 41 R121). -/
def checksum (bytes : List Byte) : Word16 := crcBytes Config.crcInit bytes

end Sys2Proof.Machine
end

