-- ==== Sys2Proof/Machine/Flags.lean ====
section
/-! DEFINITION. The error flags: their bits, the source's name for each, and every condition that sets one (spec 10 R30;
60 R191 to R197; 42 R144; 43 R162, R164, R165, R167). -/

namespace Sys2Proof.Machine

/-- The eight flags of `err` (spec 10 R30). -/
inductive Flag where
  | hdr | len | csum | keylen | blklen | ovf | unf | ill
  deriving DecidableEq, Repr

/-- The bit of `err` (spec 10 R30). -/
def Flag.bit : Flag → Nat
  | .hdr => 0
  | .len => 1
  | .csum => 2
  | .keylen => 3
  | .blklen => 4
  | .ovf => 5
  | .unf => 6
  | .ill => 7

/-- `1 << bit(X)` (spec 00 R9). -/
def Flag.mask (f : Flag) : Byte := 0x01#8 <<< f.bit

/-- The error kinds of the source's taxonomy that the block can raise (spec 10 R30; 60 R191). -/
inductive ErrorKind where
  | headerMismatch | lengthMismatch | checksumMismatch | invalidKeyLength | invalidBlockLength
  deriving DecidableEq, Repr

/-- The source's kind for a flag; three flags are the hardware's only (spec 10 R30; 60 R191, R197). -/
def Flag.kind : Flag → Option ErrorKind
  | .hdr => some .headerMismatch
  | .len => some .lengthMismatch
  | .csum => some .checksumMismatch
  | .keylen => some .invalidKeyLength
  | .blklen => some .invalidBlockLength
  | .ovf => none
  | .unf => none
  | .ill => none

/-- `first_error(e)`, for a driver that must return one kind: checksum, then length, then header (spec 43 R165). -/
def firstError (e : Byte) : Option ErrorKind :=
  if e &&& 0x04 ≠ 0 then some .checksumMismatch
  else if e &&& 0x02 ≠ 0 then some .lengthMismatch
  else if e &&& 0x01 ≠ 0 then some .headerMismatch
  else none

/-- `InvalidKeyLength`: not exactly 16 key bytes written (spec 42 R144; 60 R195). -/
def keyBad (s : State) : Bool := s.keyLen != Config.keyBytes

/-- `InvalidBlockLength`: the buffer is not a whole number of blocks (spec 42 R144; 60 R196). -/
def blockBad (s : State) : Bool := s.blen % Config.blockBytes != 0

/-- The checksum a frame should carry: of all its bytes but the last two (spec 43 R161, R162). -/
def frameSum (frame : List Byte) : Word16 := checksum (slice frame 0 (frame.length - 2))

/-- `hdr_bad(F)`: the first byte is not the sentinel (spec 43 R162; 60 R192). -/
def hdrBad (frame : List Byte) : Bool := byteAt frame 0 != Config.header

/-- `len_bad(F)`: the declared length, as an integer, is not the frame's size minus 2 (spec 43 R162; 60 R193). -/
def lenBad (frame : List Byte) : Bool := (byteAt frame 1).toNat != frame.length - 2

/-- `sum_bad(F)`: the trailing two bytes are not the checksum, low byte first (spec 43 R162; 60 R194). -/
def sumBad (frame : List Byte) : Bool :=
  byteAt frame (frame.length - 2) != loByte (frameSum frame) || byteAt frame (frame.length - 1) != hiByte (frameSum frame)

/-- The frame is shorter than header, length byte and checksum (spec 43 R164; 92 D14). -/
def frameShort (frame : List Byte) : Bool := decide (frame.length < 4)

/-- A body longer than the one-byte length field can express (spec 43 R163; 92 D15). -/
def bodyLong (body : List Byte) : Bool := decide (Config.maxBody < body.length)

/-- The size a frame's length byte declares (spec 43 R167). -/
def declaredSize (bytes : List Byte) : Nat := (byteAt bytes 1).toNat + 2

/-- The length byte is absent, or declares more bytes than are present (spec 43 R167; 60 R193). -/
def trimBad (bytes : List Byte) : Bool := decide (bytes.length < 2) || decide (bytes.length < declaredSize bytes)

/-- The buffer holds its capacity (spec 40 R99). -/
def bufFull (s : State) : Bool := s.blen == Config.bufCap

/-- Nothing is left to read (spec 40 R100). -/
def readEnd (s : State) : Bool := s.rptr == s.blen

end Sys2Proof.Machine
end

