-- ==== Sys2Proof/Machine/Ops.lean ====
section
/-! DEFINITION. The operations the meanings share: recording an error and clearing it (the block's counterpart of taking
an exception and returning from one, spec 60 R190, R199, R200), the updates of each element, reset, and the two ways a
transaction ends (spec 40 R90). -/

namespace Sys2Proof.Machine

/-- `raise X`: the flag is set, and nothing else happens (spec 00 R9; 60 R190, R199). -/
def State.raise (f : Flag) (s : State) : State := { s with err := s.err ||| f.mask }

/-- `if test then raise X` (spec 42 R145; 43 R164). -/
def State.raiseIf (test : Bool) (f : Flag) (s : State) : State := if test then s.raise f else s

/-- `err <- err & ~m`: write one to clear (spec 40 R95; 60 R200). -/
def State.clearFlags (m : Byte) (s : State) : State := { s with err := s.err &&& ~~~m }

/-- `crc <- c`. -/
def State.setCrc (c : Word16) (s : State) : State := { s with crc := c }

/-- A command rewrites the buffer: `BUF <- bytes ; rptr <- 0` (spec 10 R25). -/
def State.rewriteBuf (bytes : List Byte) (s : State) : State := { s with buf := bytes, rptr := 0 }

/-- `BUF <- BUF ++ [v]`; `rptr` is never changed by a write (spec 40 R99). -/
def State.append (v : Byte) (s : State) : State := { s with buf := s.buf ++ [v] }

/-- `rptr <- rptr + 1` (spec 40 R100). -/
def State.advance (s : State) : State := { s with rptr := s.rptr + 1 }

/-- `rptr <- 0` (spec 40 R111). -/
def State.rewind (s : State) : State := { s with rptr := 0 }

/-- `key[key_len] <- v ; key_len <- key_len + 1`, or past 16 bytes `key_len <- 17` (spec 42 R142). -/
def State.putKeyByte (v : Byte) (s : State) : State :=
  if s.keyLen < Config.keyBytes then { s with key := s.key.setIfInBounds s.keyLen v, keyLen := s.keyLen + 1 }
  else { s with keyLen := Config.keyBytes + 1 }

/-- `key <- zeros(16) ; key_len <- 0` (spec 42 R143). -/
def State.clearKey (s : State) : State := { s with key := Vector.replicate 16 0x00, keyLen := 0 }

/-- Every element of spec 10 R20 to its reset value (spec 40 R107; 70 R220). -/
def State.resetAll (s : State) : State :=
  { s with crc := 0xFFFF, buf := [], rptr := 0, key := Vector.replicate 16 0x00, keyLen := 0, err := 0x00 }

/-- A write transaction ends: it returns nothing (spec 40 R90). -/
def accept (s : State) : Host.Outcome State Fault Refusal := .next { s with rdata := none }

/-- A read transaction ends: it returns exactly one byte (spec 40 R90). -/
def answer (b : Byte) (s : State) : Host.Outcome State Fault Refusal := .next { s with rdata := some b }

end Sys2Proof.Machine
end

