-- ==== Sys2Proof/Machine/Checksum.lean ====
section
/-! DEFINITION. The checksum engine's transactions (spec 41 R122, R123, R124). -/

namespace Sys2Proof.Machine

/-- `WR CRC_DIN, v`: `crc <- crc_step(crc, v)` (spec 41 R122). -/
def execWrCrcDin (data : Byte) (s : State) : Host.Outcome State Fault Refusal := accept (s.setCrc (crcStep s.crc data))

/-- `CRC.INIT`: `crc <- 0xFFFF` (spec 41 R123). -/
def execCrcInit (s : State) : Host.Outcome State Fault Refusal := accept (s.setCrc Config.crcInit)

/-- `CRC.BUF`: `crc <- crc_bytes(crc, BUF[0:blen])`; `rptr` stays (spec 41 R124). -/
def execCrcBuf (s : State) : Host.Outcome State Fault Refusal := accept (s.setCrc (crcBytes s.crc (slice s.buf 0 s.blen)))

end Sys2Proof.Machine
end

