-- ==== Sys2Proof/Machine/Cipher.lean ====
section
/-! DEFINITION. The cipher unit: the key port, and electronic-codebook mode over the open `CIPHER` (spec 42 R140 to
R146). The mode is written over any block function, so that it can be tried with a cipher one can compute. -/

namespace Sys2Proof.Machine

/-- The first `n` blocks of 16 bytes each replaced by `f` of it, independently; the rest kept (spec 42 R145; 20 R57). -/
def ecbBlocks (f : Block → Block) : Nat → List Byte → List Byte
  | 0, bytes => bytes
  | n + 1, bytes => (f (blockOf bytes)).toList ++ ecbBlocks f n (bytes.drop 16)

/-- A cipher command over the block function `f` (key first): both preconditions tested, each failing one flagged and
nothing else done; else every block of the buffer replaced and `rptr <- 0` (spec 42 R144, R145, R146). -/
def ecbCommand (f : Key → Block → Block) (s : State) : State :=
  if keyBad s || blockBad s then (s.raiseIf (keyBad s) .keylen).raiseIf (blockBad s) .blklen
  else s.rewriteBuf (ecbBlocks (f s.key) (s.blen / Config.blockBytes) s.buf)

/-- `WR KEY_DATA, v`: the next key byte (spec 42 R142). -/
def execWrKeyData (data : Byte) (s : State) : Host.Outcome State Fault Refusal := accept (s.putKeyByte data)

/-- `KEY.CLR`: `key <- zeros(16) ; key_len <- 0` (spec 42 R143). -/
def execKeyClr (s : State) : Host.Outcome State Fault Refusal := accept s.clearKey

/-- `ECB.ENC`: every block of the buffer enciphered in place (spec 42 R145). -/
def execEcbEnc (s : State) : Host.Outcome State Fault Refusal := accept (ecbCommand Config.E s)

/-- `ECB.DEC`: every block of the buffer deciphered in place (spec 42 R146). -/
def execEcbDec (s : State) : Host.Outcome State Fault Refusal := accept (ecbCommand Config.D s)

end Sys2Proof.Machine
end

