-- ==== Sys2Proof/Machine/Control.lean ====
section
/-! DEFINITION. The control commands NOP, SRST, BUF.CLR, BUF.REW (spec 40 R106, R107, R110, R111). -/

namespace Sys2Proof.Machine

/-- `NOP`: nothing (spec 40 R106). -/
def execNop (s : State) : Host.Outcome State Fault Refusal := accept s

/-- `SRST`: every element to its reset value (spec 40 R107). -/
def execSrst (s : State) : Host.Outcome State Fault Refusal := accept s.resetAll

/-- `BUF.CLR`: `BUF <- [] ; rptr <- 0` (spec 40 R110). -/
def execBufClr (s : State) : Host.Outcome State Fault Refusal := accept (s.rewriteBuf [])

/-- `BUF.REW`: `rptr <- 0` (spec 40 R111). -/
def execBufRew (s : State) : Host.Outcome State Fault Refusal := accept s.rewind

end Sys2Proof.Machine
end

