-- ==== Sys2Proof/Machine/Framer.lean ====
section
/-! DEFINITION. The framer: the frame of a body, the body of a frame, and the commands FRM.ENC, FRM.DEC, FRM.PAD and
FRM.TRIM (spec 43 R160 to R167). -/

namespace Sys2Proof.Machine

/-- Header, length byte and body of a frame: all that its checksum covers (spec 43 R161, R162). -/
def framePrefix (body : List Byte) : List Byte := [Config.header, natLo (body.length + 2)] ++ body

/-- `frame_of(B)`, for a body of at most 253 bytes (spec 43 R162). -/
def frameOf (body : List Byte) : List Byte := framePrefix body ++ wordBytes (checksum (framePrefix body))

/-- `body_of(F)`: header, length byte and checksum stripped (spec 43 R162; 90 C3). -/
def bodyOf (frame : List Byte) : List Byte := slice frame 2 (frame.length - 2)

/-- The number of pad bytes up to a whole number of blocks, 0 to 15 (spec 43 R166). -/
def padLen (n : Nat) : Nat := (16 - n % 16) % 16

/-- The effect of `FRM.ENC` (spec 43 R163). -/
def frameEncode (s : State) : State :=
  if bodyLong s.buf then s.raise .ovf
  else (s.rewriteBuf (frameOf s.buf)).setCrc (checksum (framePrefix s.buf))

/-- The three flags of a frame's tests, all made (spec 43 R164; 60 R198). -/
def raiseFrameFlags (frame : List Byte) (s : State) : State :=
  ((s.raiseIf (hdrBad frame) .hdr).raiseIf (lenBad frame) .len).raiseIf (sumBad frame) .csum

/-- The effect of `FRM.DEC`: under 4 bytes `LEN` alone; else `crc` is written whether or not the frame is accepted, and
the buffer only when all three tests pass (spec 43 R164; 60 R199). -/
def frameDecode (s : State) : State :=
  if frameShort s.buf then s.raise .len
  else if hdrBad s.buf || lenBad s.buf || sumBad s.buf then raiseFrameFlags s.buf (s.setCrc (frameSum s.buf))
  else (s.setCrc (frameSum s.buf)).rewriteBuf (bodyOf s.buf)

/-- The effect of `FRM.TRIM` (spec 43 R167). -/
def frameTrim (s : State) : State :=
  if trimBad s.buf then s.raise .len else s.rewriteBuf (slice s.buf 0 (declaredSize s.buf))

/-- `FRM.ENC`: the body in the buffer becomes its frame (spec 43 R163). -/
def execFrmEnc (s : State) : Host.Outcome State Fault Refusal := accept (frameEncode s)

/-- `FRM.DEC`: the frame in the buffer is validated and becomes its body (spec 43 R164). -/
def execFrmDec (s : State) : Host.Outcome State Fault Refusal := accept (frameDecode s)

/-- `FRM.PAD`: zero bytes up to a whole number of blocks; `rptr <- 0` (spec 43 R166). -/
def execFrmPad (s : State) : Host.Outcome State Fault Refusal := accept (s.rewriteBuf (s.buf ++ zeros (padLen s.blen)))

/-- `FRM.TRIM`: the buffer cut to the size its length byte declares (spec 43 R167). -/
def execFrmTrim (s : State) : Host.Outcome State Fault Refusal := accept (frameTrim s)

end Sys2Proof.Machine
end

