-- ==== Sys2Proof/Machine/Illegal.lean ====
section
/-! DEFINITION. The illegal commands: the 243 opcode bytes that are no command, by the rows of the opcode table. Each
sets flag ILL and has no other effect (spec 30 R77; 40 R112). -/

namespace Sys2Proof.Machine

/-- The effect of every illegal command: `raise ILL`, nothing else changes (spec 40 R112). -/
def illegalCommand (s : State) : Host.Outcome State Fault Refusal := accept (s.raise .ill)

/-- `ILL.05_05`: an opcode from 0x05 to 0x05 (spec 40 R112). -/
def execIll0505 (s : State) : Host.Outcome State Fault Refusal := illegalCommand s

/-- `ILL.06_07`: an opcode from 0x06 to 0x07 (spec 40 R112). -/
def execIll0607 (_op : Byte) (s : State) : Host.Outcome State Fault Refusal := illegalCommand s

/-- `ILL.08_0F`: an opcode from 0x08 to 0x0F (spec 40 R112). -/
def execIll080F (_op : Byte) (s : State) : Host.Outcome State Fault Refusal := illegalCommand s

/-- `ILL.12_13`: an opcode from 0x12 to 0x13 (spec 40 R112). -/
def execIll1213 (_op : Byte) (s : State) : Host.Outcome State Fault Refusal := illegalCommand s

/-- `ILL.14_17`: an opcode from 0x14 to 0x17 (spec 40 R112). -/
def execIll1417 (_op : Byte) (s : State) : Host.Outcome State Fault Refusal := illegalCommand s

/-- `ILL.18_1F`: an opcode from 0x18 to 0x1F (spec 40 R112). -/
def execIll181F (_op : Byte) (s : State) : Host.Outcome State Fault Refusal := illegalCommand s

/-- `ILL.22_23`: an opcode from 0x22 to 0x23 (spec 40 R112). -/
def execIll2223 (_op : Byte) (s : State) : Host.Outcome State Fault Refusal := illegalCommand s

/-- `ILL.24_27`: an opcode from 0x24 to 0x27 (spec 40 R112). -/
def execIll2427 (_op : Byte) (s : State) : Host.Outcome State Fault Refusal := illegalCommand s

/-- `ILL.28_2F`: an opcode from 0x28 to 0x2F (spec 40 R112). -/
def execIll282F (_op : Byte) (s : State) : Host.Outcome State Fault Refusal := illegalCommand s

/-- `ILL.34_37`: an opcode from 0x34 to 0x37 (spec 40 R112). -/
def execIll3437 (_op : Byte) (s : State) : Host.Outcome State Fault Refusal := illegalCommand s

/-- `ILL.38_3F`: an opcode from 0x38 to 0x3F (spec 40 R112). -/
def execIll383F (_op : Byte) (s : State) : Host.Outcome State Fault Refusal := illegalCommand s

/-- `ILL.40_7F`: an opcode from 0x40 to 0x7F (spec 40 R112). -/
def execIll407F (_op : Byte) (s : State) : Host.Outcome State Fault Refusal := illegalCommand s

/-- `ILL.80_FF`: an opcode from 0x80 to 0xFF (spec 40 R112). -/
def execIll80FF (_op : Byte) (s : State) : Host.Outcome State Fault Refusal := illegalCommand s

end Sys2Proof.Machine
end

