-- ==== Sys2Proof/Machine/Reads.lean ====
section
/-! DEFINITION. The register reads (spec 40 R93, R94, R96, R97, R100 to R105, R108). -/

namespace Sys2Proof.Machine

/-- The effect of every read of a write-only or reserved address: returns 0x00, no effect (spec 40 R108). -/
def emptyRead (s : State) : Host.Outcome State Fault Refusal := answer 0x00 s

/-- `RD STATUS` (spec 40 R93). -/
def execRdStatus (s : State) : Host.Outcome State Fault Refusal := answer (statusView s) s

/-- `RD ERR`: reading does not clear (spec 40 R94). -/
def execRdErr (s : State) : Host.Outcome State Fault Refusal := answer s.err s

/-- `RD CRC_LO` (spec 40 R96). -/
def execRdCrcLo (s : State) : Host.Outcome State Fault Refusal := answer (loByte s.crc) s

/-- `RD CRC_HI` (spec 40 R97). -/
def execRdCrcHi (s : State) : Host.Outcome State Fault Refusal := answer (hiByte s.crc) s

/-- `RD BUF_DATA`: the next byte and `rptr` advances, or 0x00 and `raise UNF` at the end (spec 40 R100). -/
def execRdBufData (s : State) : Host.Outcome State Fault Refusal :=
  if readEnd s then answer 0x00 (s.raise .unf) else answer (byteAt s.buf s.rptr) s.advance

/-- `RD BLEN_LO` (spec 40 R101). -/
def execRdBlenLo (s : State) : Host.Outcome State Fault Refusal := answer (natLo s.blen) s

/-- `RD BLEN_HI` (spec 40 R102). -/
def execRdBlenHi (s : State) : Host.Outcome State Fault Refusal := answer (natBit8 s.blen) s

/-- `RD RPTR_LO` (spec 40 R103). -/
def execRdRptrLo (s : State) : Host.Outcome State Fault Refusal := answer (natLo s.rptr) s

/-- `RD RPTR_HI` (spec 40 R104). -/
def execRdRptrHi (s : State) : Host.Outcome State Fault Refusal := answer (natBit8 s.rptr) s

/-- `RD KEY_LEN` (spec 40 R105). -/
def execRdKeyLen (s : State) : Host.Outcome State Fault Refusal := answer (keyLenView s) s

/-- `RD_CMD`: a read of write-only `CMD` (spec 40 R108). -/
def execRdCmd (s : State) : Host.Outcome State Fault Refusal := emptyRead s

/-- `RD_CRC_DIN`: a read of write-only `CRC_DIN` (spec 40 R108). -/
def execRdCrcDin (s : State) : Host.Outcome State Fault Refusal := emptyRead s

/-- `RD_KEY_DATA`: a read of write-only `KEY_DATA` (spec 40 R108). -/
def execRdKeyData (s : State) : Host.Outcome State Fault Refusal := emptyRead s

/-- `RD_RSVD_D`: a read of reserved address 0xD (spec 40 R108). -/
def execRdRsvdD (s : State) : Host.Outcome State Fault Refusal := emptyRead s

/-- `RD_RSVD_E`: a read of reserved address 0xE (spec 40 R108). -/
def execRdRsvdE (s : State) : Host.Outcome State Fault Refusal := emptyRead s

/-- `RD_RSVD_F`: a read of reserved address 0xF (spec 40 R108). -/
def execRdRsvdF (s : State) : Host.Outcome State Fault Refusal := emptyRead s

end Sys2Proof.Machine
end

