-- ==== Sys2Proof/Machine/Writes.lean ====
section
/-! DEFINITION. The register writes that belong to no unit: `WR ERR`, `WR BUF_DATA`, and the ignored writes to read-only
and reserved addresses (spec 40 R95, R99, R109). -/

namespace Sys2Proof.Machine

/-- The effect of every write to a read-only or reserved address: none, and no flag (spec 40 R109). -/
def ignoredWrite (s : State) : Host.Outcome State Fault Refusal := accept s

/-- `WR ERR, m`: `err <- err & ~m` (spec 40 R95). -/
def execWrErr (data : Byte) (s : State) : Host.Outcome State Fault Refusal := accept (s.clearFlags data)

/-- `WR BUF_DATA, v`: append, or `raise OVF` when the buffer is full (spec 40 R99). -/
def execWrBufData (data : Byte) (s : State) : Host.Outcome State Fault Refusal :=
  accept (if bufFull s then s.raise .ovf else s.append data)

/-- `WR_STATUS`: a write of `STATUS`, ignored (spec 40 R109). -/
def execWrStatus (_data : Byte) (s : State) : Host.Outcome State Fault Refusal := ignoredWrite s

/-- `WR_CRC_LO`: a write of `CRC_LO`, ignored (spec 40 R109). -/
def execWrCrcLo (_data : Byte) (s : State) : Host.Outcome State Fault Refusal := ignoredWrite s

/-- `WR_CRC_HI`: a write of `CRC_HI`, ignored (spec 40 R109). -/
def execWrCrcHi (_data : Byte) (s : State) : Host.Outcome State Fault Refusal := ignoredWrite s

/-- `WR_BLEN_LO`: a write of `BLEN_LO`, ignored (spec 40 R109). -/
def execWrBlenLo (_data : Byte) (s : State) : Host.Outcome State Fault Refusal := ignoredWrite s

/-- `WR_BLEN_HI`: a write of `BLEN_HI`, ignored (spec 40 R109). -/
def execWrBlenHi (_data : Byte) (s : State) : Host.Outcome State Fault Refusal := ignoredWrite s

/-- `WR_RPTR_LO`: a write of `RPTR_LO`, ignored (spec 40 R109). -/
def execWrRptrLo (_data : Byte) (s : State) : Host.Outcome State Fault Refusal := ignoredWrite s

/-- `WR_RPTR_HI`: a write of `RPTR_HI`, ignored (spec 40 R109). -/
def execWrRptrHi (_data : Byte) (s : State) : Host.Outcome State Fault Refusal := ignoredWrite s

/-- `WR_KEY_LEN`: a write of `KEY_LEN`, ignored (spec 40 R109). -/
def execWrKeyLen (_data : Byte) (s : State) : Host.Outcome State Fault Refusal := ignoredWrite s

/-- `WR_RSVD_D`: a write of reserved address 0xD, ignored (spec 40 R109). -/
def execWrRsvdD (_data : Byte) (s : State) : Host.Outcome State Fault Refusal := ignoredWrite s

/-- `WR_RSVD_E`: a write of reserved address 0xE, ignored (spec 40 R109). -/
def execWrRsvdE (_data : Byte) (s : State) : Host.Outcome State Fault Refusal := ignoredWrite s

/-- `WR_RSVD_F`: a write of reserved address 0xF, ignored (spec 40 R109). -/
def execWrRsvdF (_data : Byte) (s : State) : Host.Outcome State Fault Refusal := ignoredWrite s

end Sys2Proof.Machine
end

