-- ==== Sys2Proof/Machine/Dispatch.lean ====
section
/-! DEFINITION. The dispatch: one arm per constructor of Instr, each a direct call of the instruction's own meaning
(spec 40 R90, R91). -/

namespace Sys2Proof.Machine

def exec (i : Instr) (s : State) : Host.Outcome State Fault Refusal :=
  match i with
  | .nop => Sys2Proof.Machine.execNop s
  | .srst => Sys2Proof.Machine.execSrst s
  | .bufClr => Sys2Proof.Machine.execBufClr s
  | .bufRew => Sys2Proof.Machine.execBufRew s
  | .keyClr => Sys2Proof.Machine.execKeyClr s
  | .crcInit => Sys2Proof.Machine.execCrcInit s
  | .crcBuf => Sys2Proof.Machine.execCrcBuf s
  | .ecbEnc => Sys2Proof.Machine.execEcbEnc s
  | .ecbDec => Sys2Proof.Machine.execEcbDec s
  | .frmEnc => Sys2Proof.Machine.execFrmEnc s
  | .frmDec => Sys2Proof.Machine.execFrmDec s
  | .frmPad => Sys2Proof.Machine.execFrmPad s
  | .frmTrim => Sys2Proof.Machine.execFrmTrim s
  | .ill0505 => Sys2Proof.Machine.execIll0505 s
  | .ill0607 op => Sys2Proof.Machine.execIll0607 op s
  | .ill080F op => Sys2Proof.Machine.execIll080F op s
  | .ill1213 op => Sys2Proof.Machine.execIll1213 op s
  | .ill1417 op => Sys2Proof.Machine.execIll1417 op s
  | .ill181F op => Sys2Proof.Machine.execIll181F op s
  | .ill2223 op => Sys2Proof.Machine.execIll2223 op s
  | .ill2427 op => Sys2Proof.Machine.execIll2427 op s
  | .ill282F op => Sys2Proof.Machine.execIll282F op s
  | .ill3437 op => Sys2Proof.Machine.execIll3437 op s
  | .ill383F op => Sys2Proof.Machine.execIll383F op s
  | .ill407F op => Sys2Proof.Machine.execIll407F op s
  | .ill80FF op => Sys2Proof.Machine.execIll80FF op s
  | .wrStatus data => Sys2Proof.Machine.execWrStatus data s
  | .wrErr data => Sys2Proof.Machine.execWrErr data s
  | .wrCrcLo data => Sys2Proof.Machine.execWrCrcLo data s
  | .wrCrcHi data => Sys2Proof.Machine.execWrCrcHi data s
  | .wrCrcDin data => Sys2Proof.Machine.execWrCrcDin data s
  | .wrBufData data => Sys2Proof.Machine.execWrBufData data s
  | .wrBlenLo data => Sys2Proof.Machine.execWrBlenLo data s
  | .wrBlenHi data => Sys2Proof.Machine.execWrBlenHi data s
  | .wrRptrLo data => Sys2Proof.Machine.execWrRptrLo data s
  | .wrRptrHi data => Sys2Proof.Machine.execWrRptrHi data s
  | .wrKeyData data => Sys2Proof.Machine.execWrKeyData data s
  | .wrKeyLen data => Sys2Proof.Machine.execWrKeyLen data s
  | .wrRsvdD data => Sys2Proof.Machine.execWrRsvdD data s
  | .wrRsvdE data => Sys2Proof.Machine.execWrRsvdE data s
  | .wrRsvdF data => Sys2Proof.Machine.execWrRsvdF data s
  | .rdCmd => Sys2Proof.Machine.execRdCmd s
  | .rdStatus => Sys2Proof.Machine.execRdStatus s
  | .rdErr => Sys2Proof.Machine.execRdErr s
  | .rdCrcLo => Sys2Proof.Machine.execRdCrcLo s
  | .rdCrcHi => Sys2Proof.Machine.execRdCrcHi s
  | .rdCrcDin => Sys2Proof.Machine.execRdCrcDin s
  | .rdBufData => Sys2Proof.Machine.execRdBufData s
  | .rdBlenLo => Sys2Proof.Machine.execRdBlenLo s
  | .rdBlenHi => Sys2Proof.Machine.execRdBlenHi s
  | .rdRptrLo => Sys2Proof.Machine.execRdRptrLo s
  | .rdRptrHi => Sys2Proof.Machine.execRdRptrHi s
  | .rdKeyData => Sys2Proof.Machine.execRdKeyData s
  | .rdKeyLen => Sys2Proof.Machine.execRdKeyLen s
  | .rdRsvdD => Sys2Proof.Machine.execRdRsvdD s
  | .rdRsvdE => Sys2Proof.Machine.execRdRsvdE s
  | .rdRsvdF => Sys2Proof.Machine.execRdRsvdF s

end Sys2Proof.Machine
end

