-- ==== Sys2Proof/WellFormed.lean ====
section
/-! DEFINITION. Well-formed instructions: the only operand with illegal values is the opcode byte of a row of several
illegal opcodes, which must lie in the row's range (spec 30 R77; 10 R34: "no field has illegal values"). -/

namespace Sys2Proof

/-- `lo <= op <= hi`, as unsigned bytes. -/
def opBetween (lo hi op : Byte) : Bool := lo.ule op && op.ule hi

/-- The instruction is one that some transaction stands for. -/
def Instr.wf : Instr → Bool
  | .nop => true
  | .srst => true
  | .bufClr => true
  | .bufRew => true
  | .keyClr => true
  | .crcInit => true
  | .crcBuf => true
  | .ecbEnc => true
  | .ecbDec => true
  | .frmEnc => true
  | .frmDec => true
  | .frmPad => true
  | .frmTrim => true
  | .ill0505 => true
  | .ill0607 op => opBetween 0x06 0x07 op
  | .ill080F op => opBetween 0x08 0x0F op
  | .ill1213 op => opBetween 0x12 0x13 op
  | .ill1417 op => opBetween 0x14 0x17 op
  | .ill181F op => opBetween 0x18 0x1F op
  | .ill2223 op => opBetween 0x22 0x23 op
  | .ill2427 op => opBetween 0x24 0x27 op
  | .ill282F op => opBetween 0x28 0x2F op
  | .ill3437 op => opBetween 0x34 0x37 op
  | .ill383F op => opBetween 0x38 0x3F op
  | .ill407F op => opBetween 0x40 0x7F op
  | .ill80FF op => opBetween 0x80 0xFF op
  | .wrStatus _ => true
  | .wrErr _ => true
  | .wrCrcLo _ => true
  | .wrCrcHi _ => true
  | .wrCrcDin _ => true
  | .wrBufData _ => true
  | .wrBlenLo _ => true
  | .wrBlenHi _ => true
  | .wrRptrLo _ => true
  | .wrRptrHi _ => true
  | .wrKeyData _ => true
  | .wrKeyLen _ => true
  | .wrRsvdD _ => true
  | .wrRsvdE _ => true
  | .wrRsvdF _ => true
  | .rdCmd => true
  | .rdStatus => true
  | .rdErr => true
  | .rdCrcLo => true
  | .rdCrcHi => true
  | .rdCrcDin => true
  | .rdBufData => true
  | .rdBlenLo => true
  | .rdBlenHi => true
  | .rdRptrLo => true
  | .rdRptrHi => true
  | .rdKeyData => true
  | .rdKeyLen => true
  | .rdRsvdD => true
  | .rdRsvdE => true
  | .rdRsvdF => true

end Sys2Proof
end

