-- ==== Sys2Proof/Decode.lean ====
section
/-! DEFINITION. Decoding and encoding. A transaction is decoded by `we` and `addr` alone, a command by its whole opcode
byte (spec 40 R90, R91; 30 R71, R73, R74, R76, R77); a 16-bit transaction word of a listing is refused by name when one
of its bits 15:13 is set (30 R70, R78). Then the encoder, and each row's match and mask from the opcode table. -/

namespace Sys2Proof

/-- Bits 15:13 of a transaction word: always 0 in a listing (spec 30 R70). -/
def zeroField (w : Word16) : BitVec 3 := w.extractLsb' 13 3

/-- Bit 12 of a transaction word: 1 for a write (spec 30 R70). -/
def weField (w : Word16) : Bool := w.getLsbD 12

/-- Bits 11:8 of a transaction word: the register address (spec 30 R70). -/
def addrField (w : Word16) : BitVec 4 := w.extractLsb' 8 4

/-- Bits 7:0 of a transaction word: the data byte (spec 30 R70). -/
def dataField (w : Word16) : Byte := w.extractLsb' 0 8

/-- The decoder of listings: the fields of a transaction word, or a refusal by name (spec 30 R70, R78). -/
def Transaction.ofWord (w : Word16) : Except DecodeError Transaction :=
  if zeroField w = 0 then .ok ⟨weField w, addrField w, dataField w⟩ else .error (.zeroBitsSet (zeroField w))

/-- The transaction word of a transaction: the concatenation of the bus fields below three zero bits (spec 30 R70). -/
def Transaction.toWord (t : Transaction) : Word16 := 0#3 ++ BitVec.ofBool t.we ++ t.addr ++ t.wdata

/-- A write of `CMD`: the 13 commands of spec 30 R74, then the 243 illegal opcodes of R77 by the rows of the opcode
table. The last row, 0x80 to 0xFF, is all that is left. -/
def decodeCommand (op : Byte) : Instr :=
  if op = 0x00 then .nop
  else if op = 0x01 then .srst
  else if op = 0x02 then .bufClr
  else if op = 0x03 then .bufRew
  else if op = 0x04 then .keyClr
  else if op = 0x10 then .crcInit
  else if op = 0x11 then .crcBuf
  else if op = 0x20 then .ecbEnc
  else if op = 0x21 then .ecbDec
  else if op = 0x30 then .frmEnc
  else if op = 0x31 then .frmDec
  else if op = 0x32 then .frmPad
  else if op = 0x33 then .frmTrim
  else if op = 0x05 then .ill0505
  else if op &&& 0xFE = 0x06 then .ill0607 op
  else if op &&& 0xF8 = 0x08 then .ill080F op
  else if op &&& 0xFE = 0x12 then .ill1213 op
  else if op &&& 0xFC = 0x14 then .ill1417 op
  else if op &&& 0xF8 = 0x18 then .ill181F op
  else if op &&& 0xFE = 0x22 then .ill2223 op
  else if op &&& 0xFC = 0x24 then .ill2427 op
  else if op &&& 0xF8 = 0x28 then .ill282F op
  else if op &&& 0xFC = 0x34 then .ill3437 op
  else if op &&& 0xF8 = 0x38 then .ill383F op
  else if op &&& 0xC0 = 0x40 then .ill407F op
  else .ill80FF op

/-- A write of address 0x1 to 0xF; a write of address 0x0 is a command (spec 30 R71, R76; 40 R109). -/
def decodeWrite (addr : BitVec 4) (data : Byte) : Instr :=
  match addr.toNat with
  | 0x0 => decodeCommand data
  | 0x1 => .wrStatus data
  | 0x2 => .wrErr data
  | 0x3 => .wrCrcLo data
  | 0x4 => .wrCrcHi data
  | 0x5 => .wrCrcDin data
  | 0x6 => .wrBufData data
  | 0x7 => .wrBlenLo data
  | 0x8 => .wrBlenHi data
  | 0x9 => .wrRptrLo data
  | 0xA => .wrRptrHi data
  | 0xB => .wrKeyData data
  | 0xC => .wrKeyLen data
  | 0xD => .wrRsvdD data
  | 0xE => .wrRsvdE data
  | _ => .wrRsvdF data

/-- A read: the data field is not decoded (spec 30 R71, R76; 40 R108). -/
def decodeRead (addr : BitVec 4) : Instr :=
  match addr.toNat with
  | 0x0 => .rdCmd
  | 0x1 => .rdStatus
  | 0x2 => .rdErr
  | 0x3 => .rdCrcLo
  | 0x4 => .rdCrcHi
  | 0x5 => .rdCrcDin
  | 0x6 => .rdBufData
  | 0x7 => .rdBlenLo
  | 0x8 => .rdBlenHi
  | 0x9 => .rdRptrLo
  | 0xA => .rdRptrHi
  | 0xB => .rdKeyData
  | 0xC => .rdKeyLen
  | 0xD => .rdRsvdD
  | 0xE => .rdRsvdE
  | _ => .rdRsvdF

/-- The instruction of a transaction: total, every combination of `we` and `addr` has a rule (spec 40 R90). -/
def decode (t : Transaction) : Instr := if t.we then decodeWrite t.addr t.wdata else decodeRead t.addr

/-- The instruction of a 16-bit transaction word (spec 30 R70), or the refusal of `Transaction.ofWord`. -/
def decodeWord (w : Word16) : Except DecodeError Instr := (Transaction.ofWord w).map decode

/-- A transaction of format C: a write of `CMD` with the opcode (spec 30 R71). -/
def commandTxn (op : Byte) : Transaction := ⟨true, 0x0, op⟩

/-- A transaction of format W (spec 30 R71). -/
def writeTxn (addr : BitVec 4) (data : Byte) : Transaction := ⟨true, addr, data⟩

/-- A transaction of format R; its data field is written as 0x00 in a listing (spec 30 R70, R71). -/
def readTxn (addr : BitVec 4) : Transaction := ⟨false, addr, 0x00⟩

/-- The encoder: the transaction of an instruction, from the tables of spec 30 R74, R76 and R77. -/
def encode : Instr → Transaction
  | .nop => commandTxn 0x00
  | .srst => commandTxn 0x01
  | .bufClr => commandTxn 0x02
  | .bufRew => commandTxn 0x03
  | .keyClr => commandTxn 0x04
  | .crcInit => commandTxn 0x10
  | .crcBuf => commandTxn 0x11
  | .ecbEnc => commandTxn 0x20
  | .ecbDec => commandTxn 0x21
  | .frmEnc => commandTxn 0x30
  | .frmDec => commandTxn 0x31
  | .frmPad => commandTxn 0x32
  | .frmTrim => commandTxn 0x33
  | .ill0505 => commandTxn 0x05
  | .ill0607 op => commandTxn op
  | .ill080F op => commandTxn op
  | .ill1213 op => commandTxn op
  | .ill1417 op => commandTxn op
  | .ill181F op => commandTxn op
  | .ill2223 op => commandTxn op
  | .ill2427 op => commandTxn op
  | .ill282F op => commandTxn op
  | .ill3437 op => commandTxn op
  | .ill383F op => commandTxn op
  | .ill407F op => commandTxn op
  | .ill80FF op => commandTxn op
  | .wrStatus data => writeTxn 0x1 data
  | .wrErr data => writeTxn 0x2 data
  | .wrCrcLo data => writeTxn 0x3 data
  | .wrCrcHi data => writeTxn 0x4 data
  | .wrCrcDin data => writeTxn 0x5 data
  | .wrBufData data => writeTxn 0x6 data
  | .wrBlenLo data => writeTxn 0x7 data
  | .wrBlenHi data => writeTxn 0x8 data
  | .wrRptrLo data => writeTxn 0x9 data
  | .wrRptrHi data => writeTxn 0xA data
  | .wrKeyData data => writeTxn 0xB data
  | .wrKeyLen data => writeTxn 0xC data
  | .wrRsvdD data => writeTxn 0xD data
  | .wrRsvdE data => writeTxn 0xE data
  | .wrRsvdF data => writeTxn 0xF data
  | .rdCmd => readTxn 0x0
  | .rdStatus => readTxn 0x1
  | .rdErr => readTxn 0x2
  | .rdCrcLo => readTxn 0x3
  | .rdCrcHi => readTxn 0x4
  | .rdCrcDin => readTxn 0x5
  | .rdBufData => readTxn 0x6
  | .rdBlenLo => readTxn 0x7
  | .rdBlenHi => readTxn 0x8
  | .rdRptrLo => readTxn 0x9
  | .rdRptrHi => readTxn 0xA
  | .rdKeyData => readTxn 0xB
  | .rdKeyLen => readTxn 0xC
  | .rdRsvdD => readTxn 0xD
  | .rdRsvdE => readTxn 0xE
  | .rdRsvdF => readTxn 0xF

/-- The transaction word of an instruction (spec 30 R70). -/
def encodeWord (i : Instr) : Word16 := (encode i).toWord

/-- The instruction is a register read, format R of spec 30 R71. -/
def Instr.isRead (i : Instr) : Bool := !(encode i).we

/-- A row of spec/opcode_table.json: a word `w` is of the row when `w` under `mask` is `value`. -/
structure TableRow where
  value : Word16
  mask  : Word16
  deriving DecidableEq, Repr

/-- The word is one of the row's words. -/
def TableRow.covers (r : TableRow) (w : Word16) : Bool := w &&& r.mask == r.value

/-- The row of spec/opcode_table.json that the constructor stands for, its `match` and `mask` copied from the table. -/
def Instr.row : Instr → TableRow
  | .nop => ⟨0x1000, 0xFFFF⟩
  | .srst => ⟨0x1001, 0xFFFF⟩
  | .bufClr => ⟨0x1002, 0xFFFF⟩
  | .bufRew => ⟨0x1003, 0xFFFF⟩
  | .keyClr => ⟨0x1004, 0xFFFF⟩
  | .crcInit => ⟨0x1010, 0xFFFF⟩
  | .crcBuf => ⟨0x1011, 0xFFFF⟩
  | .ecbEnc => ⟨0x1020, 0xFFFF⟩
  | .ecbDec => ⟨0x1021, 0xFFFF⟩
  | .frmEnc => ⟨0x1030, 0xFFFF⟩
  | .frmDec => ⟨0x1031, 0xFFFF⟩
  | .frmPad => ⟨0x1032, 0xFFFF⟩
  | .frmTrim => ⟨0x1033, 0xFFFF⟩
  | .ill0505 => ⟨0x1005, 0xFFFF⟩
  | .ill0607 _ => ⟨0x1006, 0xFFFE⟩
  | .ill080F _ => ⟨0x1008, 0xFFF8⟩
  | .ill1213 _ => ⟨0x1012, 0xFFFE⟩
  | .ill1417 _ => ⟨0x1014, 0xFFFC⟩
  | .ill181F _ => ⟨0x1018, 0xFFF8⟩
  | .ill2223 _ => ⟨0x1022, 0xFFFE⟩
  | .ill2427 _ => ⟨0x1024, 0xFFFC⟩
  | .ill282F _ => ⟨0x1028, 0xFFF8⟩
  | .ill3437 _ => ⟨0x1034, 0xFFFC⟩
  | .ill383F _ => ⟨0x1038, 0xFFF8⟩
  | .ill407F _ => ⟨0x1040, 0xFFC0⟩
  | .ill80FF _ => ⟨0x1080, 0xFF80⟩
  | .wrStatus _ => ⟨0x1100, 0xFF00⟩
  | .wrErr _ => ⟨0x1200, 0xFF00⟩
  | .wrCrcLo _ => ⟨0x1300, 0xFF00⟩
  | .wrCrcHi _ => ⟨0x1400, 0xFF00⟩
  | .wrCrcDin _ => ⟨0x1500, 0xFF00⟩
  | .wrBufData _ => ⟨0x1600, 0xFF00⟩
  | .wrBlenLo _ => ⟨0x1700, 0xFF00⟩
  | .wrBlenHi _ => ⟨0x1800, 0xFF00⟩
  | .wrRptrLo _ => ⟨0x1900, 0xFF00⟩
  | .wrRptrHi _ => ⟨0x1A00, 0xFF00⟩
  | .wrKeyData _ => ⟨0x1B00, 0xFF00⟩
  | .wrKeyLen _ => ⟨0x1C00, 0xFF00⟩
  | .wrRsvdD _ => ⟨0x1D00, 0xFF00⟩
  | .wrRsvdE _ => ⟨0x1E00, 0xFF00⟩
  | .wrRsvdF _ => ⟨0x1F00, 0xFF00⟩
  | .rdCmd => ⟨0x0000, 0xFF00⟩
  | .rdStatus => ⟨0x0100, 0xFF00⟩
  | .rdErr => ⟨0x0200, 0xFF00⟩
  | .rdCrcLo => ⟨0x0300, 0xFF00⟩
  | .rdCrcHi => ⟨0x0400, 0xFF00⟩
  | .rdCrcDin => ⟨0x0500, 0xFF00⟩
  | .rdBufData => ⟨0x0600, 0xFF00⟩
  | .rdBlenLo => ⟨0x0700, 0xFF00⟩
  | .rdBlenHi => ⟨0x0800, 0xFF00⟩
  | .rdRptrLo => ⟨0x0900, 0xFF00⟩
  | .rdRptrHi => ⟨0x0A00, 0xFF00⟩
  | .rdKeyData => ⟨0x0B00, 0xFF00⟩
  | .rdKeyLen => ⟨0x0C00, 0xFF00⟩
  | .rdRsvdD => ⟨0x0D00, 0xFF00⟩
  | .rdRsvdE => ⟨0x0E00, 0xFF00⟩
  | .rdRsvdF => ⟨0x0F00, 0xFF00⟩

/-- The transaction of an opcode-table word of `nbits` bits: every bit from `nbits` up is 0, an instruction is one
16-bit word, so a number of more than 16 bits is no word (spec 30 R70: "All transactions have this one length"). -/
def tableTransaction (nbits w : Nat) : Option Transaction :=
  if w % 2 ^ nbits < 2 ^ 16 then (Transaction.ofWord (BitVec.ofNat 16 (w % 2 ^ nbits))).toOption else none

/-- The instruction the decoder reads from an opcode-table word of `nbits` bits, numbered as spec/opcode_table.json
numbers them (spec 30 R70); none where the decoder of listings refuses the word. -/
def decodeTableWord (nbits w : Nat) : Option Instr := (tableTransaction nbits w).map decode

end Sys2Proof
end

