-- ==== Sys2Proof/Machine/Fetch.lean ====
section
/-! DEFINITION. How a transaction reaches the block: the block fetches no instruction (spec 20 R64), it takes the oldest
input the host has presented (spec 20 R53, R61), and hardware reset is one such input (spec 70 R220, R223). -/

namespace Sys2Proof.Machine

/-- The oldest pending input, and the state with it taken; none when the host has presented nothing (log 3). -/
def takeInput (s : State) : Option (BusInput × State) :=
  match s.pending with
  | [] => none
  | input :: rest => some (input, { s with pending := rest })

/-- A pulse of the reset input: every element has its reset value and no byte is on the bus; what the host presents
next is the host's (spec 70 R220, R223; log 5). -/
def State.hardReset (s : State) : State := { s.resetAll with rdata := none }

/-- The host presents a transaction as its very next input. -/
def State.present (t : Transaction) (s : State) : State := { s with pending := .transaction t :: s.pending }

/-- The transaction of an opcode-table word presented as the very next input; a word that is no transaction changes
nothing, since "the block never sees such a thing" (spec 93 V6; log 8). -/
def State.presentWord (nbits w : Nat) (s : State) : State :=
  match tableTransaction nbits w with
  | some t => s.present t
  | none => s

end Sys2Proof.Machine
end

