-- ==== Sys2Proof/Machine/Step.lean ====
section
/-! DEFINITION. One step: the oldest pending input is taken and performed whole (spec 20 R53); with nothing pending the
block does nothing (spec 70 R221). -/

namespace Sys2Proof.Machine

/-- One step of the block. -/
def step (s : State) : Host.Outcome State Fault Refusal :=
  match takeInput s with
  | none => .next s
  | some (.hardReset, s') => .next s'.hardReset
  | some (.transaction t, s') => exec (decode t) s'

/-- `s` with an opcode-table word of `nbits` bits as the host's very next transaction, so that the next step runs it
(log 3 says how a program comes to run). -/
def State.withFetchWord (s : State) (nbits w : Nat) : State := s.presentWord nbits w

end Sys2Proof.Machine
end

