-- ==== Sys2Proof/Machine/Script.lean ====
section
/-! DEFINITION. Host scripts: the written form of a program of transactions, its expansion into transactions with the
bytes its reads are expected to return, and what playing it does (spec 30 R75, R79, R80; 43 R168, R169). The block
sees only the transactions. -/

namespace Sys2Proof.Machine

/-- One line of a host script (spec 30 R79, R80). -/
inductive ScriptLine where
  /-- An empty line or a comment. -/
  | blank
  /-- `WR <reg>, <byte>`. -/
  | wr (addr : BitVec 4) (data : Byte)
  /-- `RD <reg>` or `RD <reg> = <byte>`. -/
  | rd (addr : BitVec 4) (expect : Option Byte)
  /-- A command's mnemonic alone. -/
  | command (op : Byte)
  /-- `LOAD b0 b1 ... bn`. -/
  | load (bytes : List Byte)
  /-- `KEY k0 k1 ... kn`. -/
  | key (bytes : List Byte)
  /-- `CRC b0 b1 ... bn`. -/
  | crc (bytes : List Byte)
  /-- `DRAIN n` or `DRAIN n = b0 ... b(n-1)`. -/
  | drain (n : Nat) (expect : Option (List Byte))
  /-- `RD16 CRC = 0xhhll`, or `RD16 CRC` alone as the programs of spec 95 write it. -/
  | rd16Crc (expect : Option Word16)
  /-- `CLRERR`. -/
  | clrErr
  deriving DecidableEq, Repr

/-- A transaction, with the byte a test harness expects back, if any (spec 30 R79). -/
abbrev Scripted := Transaction × Option Byte

/-- `RD <addr>`, with an expectation or without. -/
def readOf (addr : BitVec 4) (expect : Option Byte) : Scripted := (readTxn addr, expect)

/-- `WR <addr>, b` for each byte in order. -/
def writesOf (addr : BitVec 4) (bytes : List Byte) : List Scripted := bytes.map fun b => (writeTxn addr b, none)

/-- The expansion of a line: exactly the transactions of spec 30 R80. -/
def ScriptLine.expand : ScriptLine → List Scripted
  | .blank => []
  | .wr addr data => writesOf addr [data]
  | .rd addr expect => [readOf addr expect]
  | .command op => [(commandTxn op, none)]
  | .load bytes => writesOf 0x6 bytes
  | .key bytes => writesOf 0xB bytes
  | .crc bytes => writesOf 0x5 bytes
  | .drain n none => List.replicate n (readOf 0x6 none)
  | .drain _ (some bytes) => bytes.map fun b => readOf 0x6 (some b)
  | .rd16Crc expect => [readOf 0x3 (expect.map loByte), readOf 0x4 (expect.map hiByte)]
  | .clrErr => writesOf 0x2 [0xFF]

/-- The transactions of a script. -/
def transactionsOf (lines : List ScriptLine) : List Transaction := (lines.flatMap ScriptLine.expand).map Prod.fst

/-- The program of transactions played from a state: the state it leaves and the bytes its reads return, in order
(spec 20 R61: exactly one execution). None if a transaction stopped the machine; none does. -/
def play : List Transaction → State → Option (State × List Byte)
  | [], s => some (s, [])
  | t :: rest, s =>
    match exec (decode t) s with
    | .next s' => (play rest s').map fun r => (r.1, s'.rdata.toList ++ r.2)
    | .fault _ => none
    | .refused _ => none

/-- A test harness: every expectation of the script is met (spec 30 R79). -/
def harness : List Scripted → State → Bool
  | [], _ => true
  | (t, expect) :: rest, s =>
    match exec (decode t) s with
    | .next s' => (expect.isNone || s'.rdata == expect) && harness rest s'
    | .fault _ => false
    | .refused _ => false

/-- `checksum(bytes)` through the port: CRC.INIT, one write of CRC_DIN per byte, the two reads (spec 30 R75). -/
def checksumScript (bytes : List Byte) : List Transaction :=
  transactionsOf [.command 0x10, .crc bytes, .rd 0x3 none, .rd 0x4 none]

/-- The send path up to reading out: BUF.CLR, the body, FRM.ENC, FRM.PAD, ECB.ENC (spec 43 R168). -/
def sendScript (body : List Byte) : List Transaction :=
  transactionsOf [.command 0x02, .load body, .command 0x30, .command 0x32, .command 0x20]

/-- The receive path up to the check of `ERR`: BUF.CLR, the bytes, ECB.DEC, FRM.TRIM, FRM.DEC (spec 43 R169). -/
def receiveScript (bytes : List Byte) : List Transaction :=
  transactionsOf [.command 0x02, .load bytes, .command 0x21, .command 0x33, .command 0x31]

end Sys2Proof.Machine
end

