-- ==== Sys2Proof/Safety.lean ====
section
/-! DEFINITION. What counts as a safe state and a safe run: the invariants of spec 10 R32, and the states that runs from
reset reach under any inputs of the host. -/

namespace Sys2Proof.Machine

/-- The invariants that hold after reset and after every transaction (spec 10 R32). `len(BUF) = blen` holds by the form
of State (log 9). -/
abbrev State.Inv (s : State) : Prop :=
  s.rptr ≤ s.blen ∧ s.blen ≤ Config.bufCap ∧ s.keyLen ≤ Config.keyBytes + 1 ∧
    ∀ i : Fin 16, min s.keyLen Config.keyBytes ≤ i.val → s.key[i] = 0x00

/-- The 13 opcodes of spec 30 R74. -/
def opcodes : List Byte := [0x00, 0x01, 0x02, 0x03, 0x04, 0x10, 0x11, 0x20, 0x21, 0x30, 0x31, 0x32, 0x33]

/-- The cause of each flag, row by row of the table of spec 60 R191: `i`, issued in `s`, detects the flag's condition.
Written over the elements of the state, not over the tests the meanings make. -/
def Raises (i : Instr) (s : State) : Flag → Prop
  | .hdr => i = .frmDec ∧ 4 ≤ s.blen ∧ s.buf.head? ≠ some 0xFE
  | .len =>
    (i = .frmDec ∧ (s.blen < 4 ∨ (byteAt s.buf 1).toNat ≠ s.blen - 2)) ∨
      (i = .frmTrim ∧ (s.blen < 2 ∨ s.blen < (byteAt s.buf 1).toNat + 2))
  | .csum =>
    i = .frmDec ∧ 4 ≤ s.blen ∧ s.buf.drop (s.blen - 2) ≠ wordBytes (checksum (s.buf.take (s.blen - 2)))
  | .keylen => (i = .ecbEnc ∨ i = .ecbDec) ∧ s.keyLen ≠ 16
  | .blklen => (i = .ecbEnc ∨ i = .ecbDec) ∧ s.blen % 16 ≠ 0
  | .ovf => ((∃ v, i = .wrBufData v) ∧ s.blen = 272) ∨ (i = .frmEnc ∧ 253 < s.blen)
  | .unf => i = .rdBufData ∧ s.rptr = s.blen
  | .ill => ∃ op, op ∉ opcodes ∧ i = decode ⟨true, 0x0, op⟩

/-- `s` is reached by some number of steps from reset, whatever the host presents (spec 00 R6, 70 R220). -/
def State.Reachable (s : State) : Prop :=
  ∃ (inputs : List BusInput) (n : Nat), Sys2Proof.core.run n { State.reset with pending := inputs } = .next s

end Sys2Proof.Machine
end

