-- ==== Sys2Proof/Certificates/Slice0/Obligations.lean ====
section
/-! DEFINITION. The statements about the Cubo link engine, in the order of the spec's files. `blen` is the length of
`buf`; every next state is written out, so each statement about one instruction is also its frame: what is not named
is unchanged. -/

open Sys2Proof Sys2Proof.Machine

/-! ### Encoding (spec 30, 40 R90) -/

/-- Spec 30 R70, all of it: the word of a transaction has `we` at bit 12, `addr` at 11:8, `data` at 7:0 and zeros at
15:13; the decoder of listings reads the fields back and rejects, by name, a word with any of bits 15:13 set; on a read
the data field is ignored, and written as 0x00. -/
def Obligations.TransactionWordLayout : Prop :=
  (∀ t : Transaction,
      t.toWord.toNat = (if t.we then 4096 else 0) + 256 * t.addr.toNat + t.wdata.toNat ∧
      Transaction.ofWord t.toWord = .ok t) ∧
  (∀ w : Word16, w.getLsbD 13 = true ∨ w.getLsbD 14 = true ∨ w.getLsbD 15 = true →
      decodeWord w = .error (.zeroBitsSet (w.extractLsb' 13 3))) ∧
  (∀ (a : BitVec 4) (d : Byte), decode ⟨false, a, d⟩ = decode ⟨false, a, 0x00⟩) ∧
  (∀ i : Instr, (encode i).we = false → (encode i).wdata = 0x00)

/-- Spec 30 R74: the complete command table; a write of any other byte to `CMD` is one of the illegal commands. -/
def Obligations.CommandTableDecodes : Prop :=
  (∀ p ∈ ([(0x00, .nop), (0x01, .srst), (0x02, .bufClr), (0x03, .bufRew), (0x04, .keyClr), (0x10, .crcInit),
      (0x11, .crcBuf), (0x20, .ecbEnc), (0x21, .ecbDec), (0x30, .frmEnc), (0x31, .frmDec), (0x32, .frmPad),
      (0x33, .frmTrim)] : List (Byte × Instr)),
    decode ⟨true, 0x0, p.1⟩ = p.2 ∧ decodeWord (0x1000 ||| p.1.setWidth 16) = .ok p.2) ∧
  (∀ op : Byte, op ∉ opcodes →
    decode ⟨true, 0x0, op⟩ ∈ [.ill0505, .ill0607 op, .ill080F op, .ill1213 op, .ill1417 op, .ill181F op, .ill2223 op,
      .ill2427 op, .ill282F op, .ill3437 op, .ill383F op, .ill407F op, .ill80FF op])

/-- Words of spec 30 R74, R76 and R77 written out from the spec decode to the instructions they stand for. -/
def Obligations.SpecWordsDecode : Prop :=
  ∀ p ∈ ([(0x1000, .nop), (0x1011, .crcBuf), (0x1021, .ecbDec), (0x1033, .frmTrim), (0x1005, .ill0505),
      (0x1037, .ill3437 0x37), (0x10FF, .ill80FF 0xFF), (0x12A5, .wrErr 0xA5), (0x15C3, .wrCrcDin 0xC3),
      (0x1677, .wrBufData 0x77), (0x1B0F, .wrKeyData 0x0F), (0x1C10, .wrKeyLen 0x10), (0x0100, .rdStatus),
      (0x06FF, .rdBufData), (0x0A00, .rdRptrHi), (0x0F00, .rdRsvdF)] : List (Word16 × Instr)),
    decodeWord p.1 = .ok p.2

/-- Decode and encode agree: every well-formed instruction, at every value of its operand, is read back from its
transaction and from its transaction word. -/
def Obligations.DecodeOfEncode : Prop :=
  ∀ i : Instr, i.wf = true → decode (encode i) = i ∧ decodeWord (encodeWord i) = .ok i

/-- The other direction: a decoded word gives a well-formed instruction, and encoding it gives back the word, but for
the ignored data field of a read, which is written as 0x00. -/
def Obligations.EncodeOfDecode : Prop :=
  ∀ (w : Word16) (i : Instr), decodeWord w = .ok i →
    i.wf = true ∧ (w.getLsbD 12 = true → encodeWord i = w) ∧ (w.getLsbD 12 = false → encodeWord i = w &&& 0xFF00)

/-- The 57 rows of the opcode table partition the words with bits 15:13 zero, and the decoder picks each word's one row;
no row covers another word. -/
def Obligations.TableRowsPartitionWords : Prop :=
  ∀ w : Word16,
    (w.extractLsb' 13 3 = 0#3 →
      ∃ i, decodeWord w = .ok i ∧ i.row.covers w = true ∧ ∀ j : Instr, j.row.covers w = true → j.row = i.row) ∧
    (w.extractLsb' 13 3 ≠ 0#3 → ∀ j : Instr, j.row.covers w = false)

/-! ### The machine as a whole (spec 10, 20, 60, 70) -/

/-- A step runs the decoded instruction: with a transaction the oldest pending input, the step is `exec` of its
decoding on the state with that input taken, and nothing else is added around it; and a listing word presented as
the very next transaction is run by the very next step (the model's fetch, log 3). -/
def Obligations.StepRunsDecodedInstruction : Prop :=
  (∀ (s : State) (t : Transaction) (rest : List BusInput), s.pending = .transaction t :: rest →
    step s = exec (decode t) { s with pending := rest }) ∧
  (∀ (s : State) (w : Word16) (i : Instr), decodeWord w = .ok i → step (s.withFetchWord 16 w.toNat) = exec i s)

/-- Spec 10 R35, 70 R221: the reset state, element by element, and what the first reads after it return. -/
def Obligations.ResetStateAndFirstReads : Prop :=
  State.reset.crc = 0xFFFF ∧ State.reset.buf = [] ∧ State.reset.blen = 0 ∧ State.reset.rptr = 0 ∧
  (∀ i : Fin 16, State.reset.key[i] = 0x00) ∧ State.reset.keyLen = 0 ∧ State.reset.err = 0x00 ∧
  exec .rdStatus State.reset = .next { State.reset with rdata := some 0x34 } ∧
  exec .rdErr State.reset = .next { State.reset with rdata := some 0x00 } ∧
  exec .rdCrcLo State.reset = .next { State.reset with rdata := some 0xFF } ∧
  exec .rdCrcHi State.reset = .next { State.reset with rdata := some 0xFF }

/-- Spec 40 R107: `SRST` puts every element of ANY state at its reset value; only what the host has still to present is
kept, and the state is the one after reset. -/
def Obligations.SoftResetGivesResetState : Prop :=
  decodeWord 0x1001 = .ok .srst ∧
  ∀ s : State,
    exec .srst s = .next { s with
      crc := 0xFFFF, buf := [], rptr := 0, key := Vector.replicate 16 0x00, keyLen := 0, err := 0x00, rdata := none } ∧
    exec .srst s = .next { State.reset with pending := s.pending }

/-- Spec 70 R220, R221, in the model's form of the host's inputs (DESIGN CHOICE, log 3, log 4 and log 5): a pulse of the reset
input gives the reset state from ANY state and keeps what the host presents next, and a block with nothing presented
does nothing. -/
def Obligations.HardResetAndIdleBus : Prop :=
  (∀ (s : State) (rest : List BusInput), s.pending = .hardReset :: rest →
    step s = .next { State.reset with pending := rest }) ∧
  (∀ s : State, s.pending = [] → step s = .next s)

/-- The reset state meets the invariants of spec 10 R32. -/
def Obligations.ResetMeetsInvariant : Prop := State.reset.Inv

/-- Spec 10 R32: every step from every state that meets the invariants gives one that meets them:
`rptr <= blen <= 272`, `key_len <= 17`, and the key bytes not written are 0x00. -/
def Obligations.StepKeepsInvariant : Prop :=
  ∀ s s' : State, s.Inv → step s = .next s' → s'.Inv

/-- Every state that some inputs of the host reach from reset meets the invariants, so that `rptr <= blen <= 272`
and `key_len <= 17` whatever the host does. The inputs are presented in the model's form: a list taken one a step
(DESIGN CHOICE, log 3), a pulse of hardware reset being one of them (DESIGN CHOICE, log 5). -/
def Obligations.ReachableStatesMeetInvariant : Prop := ∀ s : State, s.Reachable → s.Inv

/-- Spec 40 R90, 60 R203: every transaction on every state has an outcome that is a next state; a write returns nothing,
a read exactly one byte; and no step ever stops. -/
def Obligations.EveryTransactionCompletes : Prop :=
  (∀ (t : Transaction) (s : State), ∃ s', exec (decode t) s = .next s' ∧ s'.pending = s.pending ∧
    (t.we = true → s'.rdata = none) ∧ (t.we = false → ∃ b, s'.rdata = some b)) ∧
  (∀ (i : Instr) (s : State), ∃ s', exec i s = .next s') ∧
  (∀ s : State, ∃ s', step s = .next s')

/-- Spec 20 R61: a program of transactions has one execution. Stepping the machine through a program the host has
presented, in the model's form of a pending list (DESIGN CHOICE, log 3), is playing its transactions one after the
other, the list's rest kept; and a program played after another starts from the state the first left. -/
def Obligations.StepsPlayTransactionsInOrder : Prop :=
  (∀ (ts : List Transaction) (rest : List BusInput) (s t : State) (out : List Byte),
    play ts { s with pending := rest } = some (t, out) →
      Sys2Proof.core.run ts.length { s with pending := ts.map .transaction ++ rest } = .next t) ∧
  (∀ (ts us : List Transaction) (s : State),
    play (ts ++ us) s = (play ts s).bind fun r => (play us r.1).map fun q => (q.1, r.2 ++ q.2))

/-! ### Register accesses and control commands (spec 40) -/

/-- Spec 40 R93: each bit of what `RD STATUS` returns, and that it changes nothing. -/
def Obligations.StatusReadBits : Prop :=
  decodeWord 0x0100 = .ok .rdStatus ∧
  ∀ s : State, ∃ v : Byte, exec .rdStatus s = .next { s with rdata := some v } ∧
    v.getLsbD 0 = decide (s.err ≠ 0x00) ∧ v.getLsbD 1 = decide (s.keyLen = 16) ∧
    v.getLsbD 2 = decide (s.buf.length = 0) ∧ v.getLsbD 3 = decide (s.buf.length = 272) ∧
    v.getLsbD 4 = decide (s.buf.length % 16 = 0) ∧ v.getLsbD 5 = decide (s.rptr = s.buf.length) ∧
    v.getLsbD 6 = false ∧ v.getLsbD 7 = false

/-- Spec 40 R94, R95: `RD ERR` returns the flags and clears none; `WR ERR, m` clears exactly the flags whose bit in `m`
is 1. Nothing else changes. -/
def Obligations.ErrReadAndWriteOneToClear : Prop :=
  decodeWord 0x0200 = .ok .rdErr ∧ (∀ m : Byte, decodeWord (0x1200 ||| m.setWidth 16) = .ok (.wrErr m)) ∧
  (∀ s : State, exec .rdErr s = .next { s with rdata := some s.err }) ∧
  (∀ (m : Byte) (s : State), ∃ e : Byte, exec (.wrErr m) s = .next { s with err := e, rdata := none } ∧
    ∀ k, k < 8 → e.getLsbD k = (s.err.getLsbD k && !m.getLsbD k))

/-- Spec 40 R96, R97: the two bytes of `crc`; nothing else changes. -/
def Obligations.CrcReads : Prop :=
  decodeWord 0x0300 = .ok .rdCrcLo ∧ decodeWord 0x0400 = .ok .rdCrcHi ∧
  ∀ s : State, ∃ lo hi : Byte,
    exec .rdCrcLo s = .next { s with rdata := some lo } ∧ exec .rdCrcHi s = .next { s with rdata := some hi } ∧
    s.crc.toNat = 256 * hi.toNat + lo.toNat

/-- Spec 40 R101 to R104: the low byte, and bit 8 alone, of `blen` and of `rptr`; nothing else changes. -/
def Obligations.LengthAndPointerReads : Prop :=
  decodeWord 0x0700 = .ok .rdBlenLo ∧ decodeWord 0x0800 = .ok .rdBlenHi ∧
  decodeWord 0x0900 = .ok .rdRptrLo ∧ decodeWord 0x0A00 = .ok .rdRptrHi ∧
  ∀ s : State, ∃ bl bh rl rh : Byte,
    exec .rdBlenLo s = .next { s with rdata := some bl } ∧ exec .rdBlenHi s = .next { s with rdata := some bh } ∧
    exec .rdRptrLo s = .next { s with rdata := some rl } ∧ exec .rdRptrHi s = .next { s with rdata := some rh } ∧
    (∀ k, k < 8 → bl.getLsbD k = s.buf.length.testBit k ∧ rl.getLsbD k = s.rptr.testBit k) ∧
    (∀ k, k < 8 → bh.getLsbD k = (decide (k = 0) && s.buf.length.testBit 8) ∧
      rh.getLsbD k = (decide (k = 0) && s.rptr.testBit 8))

/-- Spec 40 R105: `RD KEY_LEN` returns `key_len` (0 to 17), with bits 7:5 zero; nothing else changes. -/
def Obligations.KeyLengthRead : Prop :=
  decodeWord 0x0C00 = .ok .rdKeyLen ∧
  ∀ s : State, ∃ v : Byte, exec .rdKeyLen s = .next { s with rdata := some v } ∧
    (s.keyLen ≤ 17 → v.toNat = s.keyLen) ∧ v.getLsbD 5 = false ∧ v.getLsbD 6 = false ∧ v.getLsbD 7 = false

/-- Spec 40 R99: `WR BUF_DATA, v` on a full buffer sets `OVF` and nothing else; otherwise the byte is appended and
nothing else changes, `rptr` included. -/
def Obligations.BufferWriteAppends : Prop :=
  (∀ v : Byte, decodeWord (0x1600 ||| v.setWidth 16) = .ok (.wrBufData v)) ∧
  ∀ (v : Byte) (s : State),
    (s.buf.length = 272 → exec (.wrBufData v) s = .next { s with err := s.err ||| 0x20, rdata := none }) ∧
    (s.buf.length ≠ 272 → exec (.wrBufData v) s = .next { s with buf := s.buf ++ [v], rdata := none })

/-- Spec 40 R100: `RD BUF_DATA` at the end returns 0x00 and sets `UNF`, nothing else; before the end it returns
`BUF[rptr]` and advances `rptr`, and nothing else changes. -/
def Obligations.BufferReadAdvances : Prop :=
  decodeWord 0x0600 = .ok .rdBufData ∧
  ∀ s : State,
    (s.rptr = s.buf.length → exec .rdBufData s = .next { s with err := s.err ||| 0x40, rdata := some 0x00 }) ∧
    (∀ h : s.rptr < s.buf.length,
      exec .rdBufData s = .next { s with rptr := s.rptr + 1, rdata := some s.buf[s.rptr] })

/-- Spec 40 R108: a read of a write-only or reserved address returns 0x00 and changes nothing. -/
def Obligations.WriteOnlyAndReservedReadZero : Prop :=
  ∀ s : State, ∀ p ∈ ([(0x0000, .rdCmd), (0x0500, .rdCrcDin), (0x0B00, .rdKeyData), (0x0D00, .rdRsvdD),
      (0x0E00, .rdRsvdE), (0x0F00, .rdRsvdF)] : List (Word16 × Instr)),
    decodeWord p.1 = .ok p.2 ∧ exec p.2 s = .next { s with rdata := some 0x00 }

/-- Spec 40 R109: a write to a read-only or reserved address changes nothing and sets no flag. -/
def Obligations.ReadOnlyAndReservedWritesIgnored : Prop :=
  ∀ (v : Byte) (s : State), ∀ p ∈ ([(0x1, .wrStatus v), (0x3, .wrCrcLo v), (0x4, .wrCrcHi v), (0x7, .wrBlenLo v),
      (0x8, .wrBlenHi v), (0x9, .wrRptrLo v), (0xA, .wrRptrHi v), (0xC, .wrKeyLen v), (0xD, .wrRsvdD v),
      (0xE, .wrRsvdE v), (0xF, .wrRsvdF v)] : List (BitVec 4 × Instr)),
    decodeWord (0x1000 ||| (p.1.setWidth 16 <<< 8) ||| v.setWidth 16) = .ok p.2 ∧
    exec p.2 s = .next { s with rdata := none }

/-- Spec 40 R106, R110, R111: `NOP` changes nothing, `BUF.CLR` empties the buffer and sets `rptr` to 0, `BUF.REW` sets
`rptr` to 0; flags, `crc` and key stay. -/
def Obligations.ControlCommands : Prop :=
  decodeWord 0x1000 = .ok .nop ∧ decodeWord 0x1002 = .ok .bufClr ∧ decodeWord 0x1003 = .ok .bufRew ∧
  ∀ s : State,
    exec .nop s = .next { s with rdata := none } ∧
    exec .bufClr s = .next { s with buf := [], rptr := 0, rdata := none } ∧
    exec .bufRew s = .next { s with rptr := 0, rdata := none }

/-- Spec 30 R77, 40 R112: a write to `CMD` of any byte but the 13 opcodes sets `ILL` and has no other effect, there are
243 such bytes, and each of the table's 13 rows of illegal commands does the same. -/
def Obligations.IllegalCommandsSetIll : Prop :=
  (∀ (op : Byte) (s : State), op ∉ opcodes → ∃ i, decodeWord (0x1000 ||| op.setWidth 16) = .ok i ∧
    i = decode ⟨true, 0x0, op⟩ ∧ exec i s = .next { s with err := s.err ||| 0x80, rdata := none }) ∧
  ((List.range 256).filter fun n => BitVec.ofNat 8 n ∉ opcodes).length = 243 ∧
  (∀ (op : Byte) (s : State),
    ∀ i ∈ [Instr.ill0505, .ill0607 op, .ill080F op, .ill1213 op, .ill1417 op, .ill181F op, .ill2223 op, .ill2427 op,
      .ill282F op, .ill3437 op, .ill383F op, .ill407F op, .ill80FF op],
    exec i s = .next { s with err := s.err ||| 0x80, rdata := none })

/-! ### The checksum engine (spec 41) -/

/-- Spec 41 R120, R122: `WR CRC_DIN, v` folds one byte in: `v` into the low byte of the register, then 8 times, if the
lowest bit is set, shift right one and exclusive-or with 0xA001, otherwise just shift right one. Nothing else changes. -/
def Obligations.CrcPortFoldsByteBitByBit : Prop :=
  (∀ v : Byte, decodeWord (0x1500 ||| v.setWidth 16) = .ok (.wrCrcDin v)) ∧
  ∀ (v : Byte) (s : State), ∃ r : Nat → Word16,
    r 0 = s.crc ^^^ v.setWidth 16 ∧
    (∀ n, n < 8 → r (n + 1) = if (r n).getLsbD 0 = true then (r n >>> 1) ^^^ 0xA001#16 else r n >>> 1) ∧
    crcStep s.crc v = r 8 ∧
    exec (.wrCrcDin v) s = .next { s with crc := r 8, rdata := none }

/-- Spec 41 R121, R123, R124: the fold of a byte sequence, `CRC.INIT` and `CRC.BUF`; `BUF` and `rptr` stay. -/
def Obligations.CrcInitAndCrcBuf : Prop :=
  decodeWord 0x1010 = .ok .crcInit ∧ decodeWord 0x1011 = .ok .crcBuf ∧
  (∀ (c : Word16) (bytes : List Byte), crcBytes c bytes = bytes.foldl crcStep c) ∧
  (∀ bytes : List Byte, checksum bytes = crcBytes 0xFFFF bytes) ∧ checksum [] = 0xFFFF ∧
  (∀ s : State, exec .crcInit s = .next { s with crc := 0xFFFF, rdata := none }) ∧
  (∀ s : State, exec .crcBuf s = .next { s with crc := crcBytes s.crc s.buf, rdata := none })

/-- Spec 30 R75, 41 R125: CRC.INIT, one write of `CRC_DIN` per byte, then the two reads return `checksum(bytes)`, low
byte first, from any state; only `crc` changes. -/
def Obligations.ChecksumScriptReturnsChecksum : Prop :=
  ∀ (bytes : List Byte) (s : State), ∃ lo hi : Byte,
    play (checksumScript bytes) s = some ({ s with crc := checksum bytes, rdata := some hi }, [lo, hi]) ∧
    (checksum bytes).toNat = 256 * hi.toNat + lo.toNat

/-- Spec 41 R126 (a): composition. -/
def Obligations.CrcComposition : Prop :=
  ∀ (c : Word16) (a b : List Byte), crcBytes c (a ++ b) = crcBytes (crcBytes c a) b

/-- Spec 41 R126 (b): the byte-table form, with the four table entries the rule gives. -/
def Obligations.CrcTableForm : Prop :=
  (∀ (c : Word16) (b : Byte), crcStep c b = (c >>> 8) ^^^ crcStep 0x0000 ((c ^^^ b.setWidth 16).extractLsb' 0 8)) ∧
  crcStep 0x0000 0x00 = 0x0000 ∧ crcStep 0x0000 0x01 = 0xC0C1 ∧ crcStep 0x0000 0x80 = 0xA001 ∧
  crcStep 0x0000 0xFF = 0x4040

/-- Spec 41 R126 (c): the residue of a sequence followed by its own checksum, whole and after the low byte alone. -/
def Obligations.CrcResidue : Prop :=
  ∀ (m : List Byte) (c : Word16), c = checksum m →
    crcBytes 0xFFFF (m ++ [c.extractLsb' 0 8, c.extractLsb' 8 8]) = 0x0000 ∧
    crcBytes 0xFFFF (m ++ [c.extractLsb' 0 8]) = (c.extractLsb' 8 8).setWidth 16

/-- Spec 41 R126 (d): flipping exactly one bit of a sequence changes its checksum. -/
def Obligations.CrcDetectsSingleBit : Prop :=
  ∀ (m : List Byte) (k b : Nat) (hk : k < m.length), b < 8 →
    checksum (m.set k (m[k] ^^^ (0x01#8 <<< b))) ≠ checksum m

/-- Spec 41 R126 (e): `crc_step` is a bijection on the register for each byte, and linear over exclusive or. -/
def Obligations.CrcStepBijectiveAndLinear : Prop :=
  (∀ b : Byte, Function.Bijective fun c : Word16 => crcStep c b) ∧
  (∀ (c₁ c₂ : Word16) (b₁ b₂ : Byte), crcStep (c₁ ^^^ c₂) (b₁ ^^^ b₂) = crcStep c₁ b₁ ^^^ crcStep c₂ b₂)

/-! ### The cipher unit (spec 42) -/

/-- Spec 42 R142, R143: the next key byte while fewer than 16 have been written; then the byte is discarded and `key_len`
is 17; `KEY.CLR` zeroes both. Nothing else changes and no flag is set. -/
def Obligations.KeyBytesAndKeyClear : Prop :=
  (∀ v : Byte, decodeWord (0x1B00 ||| v.setWidth 16) = .ok (.wrKeyData v)) ∧ decodeWord 0x1004 = .ok .keyClr ∧
  (∀ (v : Byte) (s : State),
    (∀ h : s.keyLen < 16,
      exec (.wrKeyData v) s =
        .next { s with key := s.key.set s.keyLen v h, keyLen := s.keyLen + 1, rdata := none }) ∧
    (16 ≤ s.keyLen → exec (.wrKeyData v) s = .next { s with keyLen := 17, rdata := none })) ∧
  (∀ s : State, exec .keyClr s = .next { s with key := Vector.replicate 16 0x00, keyLen := 0, rdata := none })

/-- Spec 42 R142, 70 R222, R232: a whole key written after reset or `KEY.CLR`. Byte `j` of what the host writes becomes
`key[j]`; the length counts 0 to 16 and is 17 for more, which makes the key unusable; nothing but the key changes. -/
def Obligations.KeySequenceLoads : Prop :=
  ∀ (bytes : List Byte) (s : State), s.keyLen = 0 → ∃ k : Key,
    play (transactionsOf [.key bytes]) s =
      some ({ s with key := k, keyLen := min bytes.length 17, rdata := if bytes = [] then s.rdata else none }, []) ∧
    ∀ j : Fin 16, k[j] = if j.val < bytes.length then bytes.getD j.val 0x00 else s.key[j]

/-- Spec 42 R145: `ECB.ENC`. If a precondition fails each failing one sets its flag and nothing else changes; otherwise
byte `j` of every block `i` is byte `j` of `E(key, block i)`, `blen` is kept and `rptr` is 0; nothing else changes. -/
def Obligations.EcbEncipher : Prop :=
  decodeWord 0x1020 = .ok .ecbEnc ∧
  ∀ s : State,
    (s.keyLen ≠ 16 ∨ s.buf.length % 16 ≠ 0 → exec .ecbEnc s = .next { s with
      err := s.err ||| (if s.keyLen ≠ 16 then 0x08 else 0x00) ||| (if s.buf.length % 16 ≠ 0 then 0x10 else 0x00),
      rdata := none }) ∧
    (s.keyLen = 16 → s.buf.length % 16 = 0 → ∃ out : List Byte,
      exec .ecbEnc s = .next { s with buf := out, rptr := 0, rdata := none } ∧ out.length = s.buf.length ∧
      ∀ i, 16 * i < s.buf.length → ∀ j : Fin 16,
        out[16 * i + j.val]? = some (Config.E s.key (Vector.ofFn fun k => s.buf.getD (16 * i + k.val) 0x00))[j])

/-- Spec 42 R146: `ECB.DEC`, as `EcbEncipher` with `D` in place of `E`. -/
def Obligations.EcbDecipher : Prop :=
  decodeWord 0x1021 = .ok .ecbDec ∧
  ∀ s : State,
    (s.keyLen ≠ 16 ∨ s.buf.length % 16 ≠ 0 → exec .ecbDec s = .next { s with
      err := s.err ||| (if s.keyLen ≠ 16 then 0x08 else 0x00) ||| (if s.buf.length % 16 ≠ 0 then 0x10 else 0x00),
      rdata := none }) ∧
    (s.keyLen = 16 → s.buf.length % 16 = 0 → ∃ out : List Byte,
      exec .ecbDec s = .next { s with buf := out, rptr := 0, rdata := none } ∧ out.length = s.buf.length ∧
      ∀ i, 16 * i < s.buf.length → ∀ j : Fin 16,
        out[16 * i + j.val]? = some (Config.D s.key (Vector.ofFn fun k => s.buf.getD (16 * i + k.val) 0x00))[j])

/-- Spec 42 R147: the round trip on the buffer, both ways round, for every `CIPHER` the rules allow. -/
def Obligations.EcbRoundTrip : Prop :=
  ∀ s : State, s.keyLen = 16 → s.buf.length % 16 = 0 →
    (∃ t, exec .ecbEnc s = .next t ∧ exec .ecbDec t = .next { s with rptr := 0, rdata := none }) ∧
    (∃ t, exec .ecbDec s = .next t ∧ exec .ecbEnc t = .next { s with rptr := 0, rdata := none })

/-- Spec 42 R145, 70 R234: no chaining. Where two buffers under one key hold an equal block, at whatever two places,
their enciphered buffers hold an equal block at those places. -/
def Obligations.EqualBlocksEncipherEqually : Prop :=
  ∀ (s s' t t' : State) (i i' : Nat), s.keyLen = 16 → s.buf.length % 16 = 0 → s'.keyLen = 16 →
    s'.buf.length % 16 = 0 → s.key = s'.key → 16 * i < s.buf.length → 16 * i' < s'.buf.length →
    (s.buf.drop (16 * i)).take 16 = (s'.buf.drop (16 * i')).take 16 →
    exec .ecbEnc s = .next t → exec .ecbEnc s' = .next t' →
    (t.buf.drop (16 * i)).take 16 = (t'.buf.drop (16 * i')).take 16

/-! ### The framer (spec 43) -/

/-- Spec 43 R163: `FRM.ENC`. A body over 253 bytes sets `OVF` and nothing else changes; otherwise the buffer becomes
header, length byte, body and the checksum of those, low byte first; `crc` is that checksum and `rptr` 0. -/
def Obligations.FrameEncode : Prop :=
  decodeWord 0x1030 = .ok .frmEnc ∧
  ∀ s : State,
    (253 < s.buf.length → exec .frmEnc s = .next { s with err := s.err ||| 0x20, rdata := none }) ∧
    (s.buf.length ≤ 253 → ∃ (p : List Byte) (c : Word16),
      p = [0xFE, BitVec.ofNat 8 (s.buf.length + 2)] ++ s.buf ∧ c = crcBytes 0xFFFF p ∧
      exec .frmEnc s =
        .next { s with buf := p ++ [c.extractLsb' 0 8, c.extractLsb' 8 8], crc := c, rptr := 0, rdata := none })

/-- Spec 43 R160, R161: the layout of the frame `FRM.ENC` leaves for a body of `m` bytes: `m + 4` bytes, header, length
byte `m + 2` as an integer, the body, and the checksum of all bytes before it, little-endian. -/
def Obligations.FrameLayout : Prop :=
  ∀ s t : State, s.buf.length ≤ 253 → exec .frmEnc s = .next t →
    t.buf.length = s.buf.length + 4 ∧ t.buf[0]? = some 0xFE ∧
    (t.buf[1]?).map BitVec.toNat = some (s.buf.length + 2) ∧
    (∀ i, i < s.buf.length → t.buf[i + 2]? = s.buf[i]?) ∧
    (∃ lo hi : Byte, t.buf[t.buf.length - 2]? = some lo ∧ t.buf[t.buf.length - 1]? = some hi ∧
      (checksum (t.buf.take (t.buf.length - 2))).toNat = 256 * hi.toNat + lo.toNat)

/-- Spec 43 R164: `FRM.DEC`. Under 4 bytes `LEN` alone, `crc` kept. From 4 bytes up `crc` becomes the recomputed checksum
whether or not the frame is accepted; each failing test sets its flag and, if any fails, nothing else changes; if none
fails the buffer becomes the body, `rptr` 0, and nothing else changes. -/
def Obligations.FrameDecode : Prop :=
  decodeWord 0x1031 = .ok .frmDec ∧
  ∀ s : State,
    (s.buf.length < 4 → exec .frmDec s = .next { s with err := s.err ||| 0x02, rdata := none }) ∧
    (4 ≤ s.buf.length → ∃ (c : Word16) (h l x : Bool),
      c = crcBytes 0xFFFF (s.buf.take (s.buf.length - 2)) ∧
      h = decide (s.buf[0]? ≠ some 0xFE) ∧
      l = decide ((s.buf[1]?).map BitVec.toNat ≠ some (s.buf.length - 2)) ∧
      x = decide (s.buf[s.buf.length - 2]? ≠ some (c.extractLsb' 0 8) ∨
        s.buf[s.buf.length - 1]? ≠ some (c.extractLsb' 8 8)) ∧
      ((h || l || x) = true → exec .frmDec s = .next { s with
        crc := c, rdata := none,
        err := s.err ||| (if h then 0x01 else 0x00) ||| (if l then 0x02 else 0x00) ||| (if x then 0x04 else 0x00) }) ∧
      ((h || l || x) = false → exec .frmDec s = .next { s with
        crc := c, rdata := none, rptr := 0, buf := (s.buf.take (s.buf.length - 2)).drop 2 }))

/-- What `FRM.DEC` accepts: from clear flags it sets none exactly when the buffer is the frame that `FRM.ENC` makes of
some body, and it then leaves that body. -/
def Obligations.DecodeAcceptsExactlyFrames : Prop :=
  ∀ s t : State, s.err = 0x00 → exec .frmDec s = .next t →
    (t.err = 0x00 ↔ ∃ u : State, u.buf.length ≤ 253 ∧
      exec .frmEnc u = .next { u with buf := s.buf, crc := t.crc, rptr := 0, rdata := none } ∧ t.buf = u.buf)

/-- Spec 43 R166: `FRM.PAD` appends `p` zero bytes, `p` the least number that makes a whole number of blocks, and sets
`rptr` to 0; nothing else changes, no flag is set, and within the capacity it stays within it. -/
def Obligations.FramePad : Prop :=
  decodeWord 0x1032 = .ok .frmPad ∧
  ∀ s : State, ∃ p : Nat, p < 16 ∧ (s.buf.length + p) % 16 = 0 ∧
    exec .frmPad s = .next { s with buf := s.buf ++ List.replicate p 0x00, rptr := 0, rdata := none } ∧
    (s.buf.length ≤ 272 → s.buf.length + p ≤ 272)

/-- Spec 43 R167: `FRM.TRIM` sets `LEN` and nothing else when there is no length byte or it declares more bytes than
are present; otherwise it cuts the buffer to the declared size and sets `rptr` to 0; nothing else changes. -/
def Obligations.FrameTrim : Prop :=
  decodeWord 0x1033 = .ok .frmTrim ∧
  ∀ s : State,
    (s.buf.length < 2 → exec .frmTrim s = .next { s with err := s.err ||| 0x02, rdata := none }) ∧
    (∀ b : Byte, s.buf[1]? = some b → s.buf.length < b.toNat + 2 →
      exec .frmTrim s = .next { s with err := s.err ||| 0x02, rdata := none }) ∧
    (∀ b : Byte, s.buf[1]? = some b → b.toNat + 2 ≤ s.buf.length →
      exec .frmTrim s = .next { s with buf := s.buf.take (b.toNat + 2), rptr := 0, rdata := none })

/-- Spec 43 R170 (a): a body of at most 253 bytes, framed and validated, is recovered unchanged with no flag set. -/
def Obligations.FrameRoundTrip : Prop :=
  ∀ s : State, s.buf.length ≤ 253 →
    ∃ t u : State, exec .frmEnc s = .next t ∧ exec .frmDec t = .next u ∧ u.buf = s.buf ∧ u.err = s.err ∧
      u.crc = t.crc ∧ u.rptr = 0 ∧ u.key = s.key ∧ u.keyLen = s.keyLen

/-- Spec 43 R168, R169, R170 (b): a body of at most 253 bytes sent by one block and received by another that holds the
same 16-byte key is recovered, no flag is set on either side, and what is sent is a whole number of blocks, 16 to 272
bytes; for every `CIPHER` the rules allow and whatever the two blocks held before. -/
def Obligations.LinkDeliversBody : Prop :=
  ∀ (body : List Byte) (s r : State), body.length ≤ 253 → s.keyLen = 16 → r.keyLen = 16 → s.key = r.key →
    ∃ t u : State,
      play (sendScript body) s = some (t, []) ∧ t.err = s.err ∧ t.rptr = 0 ∧
      t.buf.length % 16 = 0 ∧ 16 ≤ t.buf.length ∧ t.buf.length ≤ 272 ∧
      play (receiveScript t.buf) r = some (u, []) ∧ u.err = r.err ∧ u.buf = body ∧ u.rptr = 0

/-- Spec 43 R170 (c): one flipped bit of a valid frame. In the header byte it sets `HDR` and `CSUM`, in the length byte
`LEN` and `CSUM`, in the body or in either checksum byte `CSUM` alone; the buffer is kept. -/
def Obligations.SingleBitFlipRejected : Prop :=
  ∀ (s t : State) (k b : Nat) (hk : k < t.buf.length), b < 8 → s.buf.length ≤ 253 → exec .frmEnc s = .next t →
    ∃ (u : State) (bad : List Byte), bad = t.buf.set k (t.buf[k] ^^^ (0x01#8 <<< b)) ∧
      exec .frmDec { t with buf := bad } = .next u ∧ u.buf = bad ∧
      u.err = t.err ||| (if k = 0 then 0x05 else if k = 1 then 0x06 else 0x04)

/-! ### Whole-machine rules (spec 10 R21 to R28, 20 R60, 60 R191 to R200) -/

/-- Spec 10 R21: only these transactions change `crc`. -/
def Obligations.CrcWriters : Prop :=
  ∀ (i : Instr) (s t : State), exec i s = .next t → t.crc ≠ s.crc →
    i = .srst ∨ i = .crcInit ∨ (∃ v, i = .wrCrcDin v) ∨ i = .crcBuf ∨ (i = .frmEnc ∧ s.buf.length ≤ 253) ∨
      (i = .frmDec ∧ 4 ≤ s.buf.length)

/-- Spec 10 R23: how each transaction changes `blen`; every other one leaves it. -/
def Obligations.LengthWriters : Prop :=
  ∀ (i : Instr) (s t : State), exec i s = .next t → t.blen ≠ s.blen →
    ((i = .srst ∨ i = .bufClr) ∧ t.blen = 0) ∨ ((∃ v, i = .wrBufData v) ∧ t.blen = s.blen + 1) ∨
      (i = .frmEnc ∧ t.blen = s.blen + 4) ∨ (i = .frmDec ∧ t.blen + 4 = s.blen) ∨
      (i = .frmPad ∧ s.blen < t.blen ∧ t.blen < s.blen + 16 ∧ t.blen % 16 = 0) ∨
      (i = .frmTrim ∧ t.blen = (byteAt s.buf 1).toNat + 2 ∧ t.blen < s.blen)

/-- Spec 10 R22, 40 R99, 42 R145, R146: every byte of the buffer stays as it was, but for the commands that rewrite or
empty it: a write of `BUF_DATA`, `FRM.PAD` and `FRM.TRIM` keep every byte below the shorter length, and every
instruction not named here keeps the whole buffer. -/
def Obligations.BufferBytesKept : Prop :=
  ∀ (i : Instr) (s t : State), exec i s = .next t →
    (i ∉ [Instr.srst, .bufClr, .ecbEnc, .ecbDec, .frmEnc, .frmDec] →
      ∀ k, k < s.buf.length → k < t.buf.length → t.buf[k]? = s.buf[k]?) ∧
    (i ∉ [Instr.srst, .bufClr, .ecbEnc, .ecbDec, .frmEnc, .frmDec, .frmPad, .frmTrim] → (∀ v, i ≠ .wrBufData v) →
      t.buf = s.buf)

/-- Spec 10 R25: only these transactions change `rptr`, a read of `BUF_DATA` by one, the others to 0. -/
def Obligations.ReadPointerWriters : Prop :=
  ∀ (i : Instr) (s t : State), exec i s = .next t → t.rptr ≠ s.rptr →
    (i = .rdBufData ∧ t.rptr = s.rptr + 1) ∨
      (i ∈ [Instr.srst, .bufClr, .bufRew, .ecbEnc, .ecbDec, .frmEnc, .frmDec, .frmPad, .frmTrim] ∧ t.rptr = 0)

/-- Spec 10 R26, R27: only `SRST`, `KEY.CLR` and a write of `KEY_DATA` change the key or its length. -/
def Obligations.KeyWriters : Prop :=
  ∀ (i : Instr) (s t : State), exec i s = .next t → i ≠ .srst → i ≠ .keyClr → (∀ v, i ≠ .wrKeyData v) →
    t.key = s.key ∧ t.keyLen = s.keyLen

/-- Spec 60 R191, R198, R200: the flags after any transaction, exactly. A flag is set after it if and only if the
transaction detects the flag's cause of R191's table, or the flag was set before and the transaction neither is `SRST`
nor clears its bit through `ERR`. -/
def Obligations.FlagsAfterTransaction : Prop :=
  ∀ (i : Instr) (s t : State) (f : Flag), i.wf = true → exec i s = .next t →
    (t.err.getLsbD f.bit = true ↔
      Raises i s f ∨ (s.err.getLsbD f.bit = true ∧ i ≠ .srst ∧ ∀ m, i = .wrErr m → m.getLsbD f.bit = false))

/-- Spec 60 R199: a transaction that detects an error changes nothing but `err`, except that `FRM.DEC` from 4 bytes up
writes the recomputed checksum to `crc`; a failed read returns 0x00. -/
def Obligations.FailingTransactionChangesOnlyErr : Prop :=
  ∀ (i : Instr) (s : State) (f : Flag), Raises i s f → ∃ e : Byte,
    exec i s = .next { s with
      err := e,
      crc := if i = .frmDec ∧ 4 ≤ s.buf.length then checksum (s.buf.take (s.buf.length - 2)) else s.crc,
      rdata := if i = .rdBufData then some 0x00 else none }

/-- Spec 10 R28: a set flag changes nothing else. Two states that differ only in `err` give, after any transaction, two
states that differ only in `err` and in what `RD ERR` and `RD STATUS` return. -/
def Obligations.SetFlagsChangeNothingElse : Prop :=
  ∀ (i : Instr) (s t : State) (e : Byte), exec i s = .next t → ∃ (e' : Byte) (b : Option Byte),
    exec i { s with err := e } = .next { t with err := e', rdata := b } ∧
    (i ≠ .rdErr → i ≠ .rdStatus → b = t.rdata)

/-- Spec 10 R26, 40 R105, R108, for programs without a cipher command: no register returns any key byte. Two blocks that differ only in the key's bytes return
the same bytes, and end with the same flags, under every program without a cipher command. -/
def Obligations.KeyNotReadBackWithoutCipherCommand : Prop :=
  ∀ (ts : List Transaction) (s t : State) (out : List Byte) (k : Key),
    (∀ x ∈ ts, decode x ≠ .ecbEnc ∧ decode x ≠ .ecbDec) → play ts s = some (t, out) →
    ∃ k' : Key, play ts { s with key := k } = some ({ t with key := k' }, out)

/-- Spec 20 R60, 43 R167: performing one of these transactions twice is performing it once; and every read but that of
`BUF_DATA` changes nothing but the byte on the bus. -/
def Obligations.IdempotentTransactions : Prop :=
  (∀ (m : Byte) (s : State), ∀ i ∈ [Instr.nop, .crcInit, .bufClr, .bufRew, .keyClr, .srst, .frmPad, .frmTrim, .wrErr m],
    ∃ t, exec i s = .next t ∧ exec i t = .next t) ∧
  (∀ (i : Instr) (s : State), i.isRead = true → i ≠ .rdBufData → ∃ b, exec i s = .next { s with rdata := some b })
end

