-- ==== Sys2Proof/Laws/State.lean ====
section
/-! SUPPORT. One lemma per field per update of State, true by rfl, so that no later proof unfolds a record update; then
the same for the two updates that test something. -/

namespace Sys2Proof.Machine

@[simp] theorem State.blen_eq (s : State) : s.blen = s.buf.length := rfl

@[simp] theorem State.raise_crc (s : State) (f : Flag) : (s.raise f).crc = s.crc := rfl
@[simp] theorem State.raise_buf (s : State) (f : Flag) : (s.raise f).buf = s.buf := rfl
@[simp] theorem State.raise_rptr (s : State) (f : Flag) : (s.raise f).rptr = s.rptr := rfl
@[simp] theorem State.raise_key (s : State) (f : Flag) : (s.raise f).key = s.key := rfl
@[simp] theorem State.raise_keyLen (s : State) (f : Flag) : (s.raise f).keyLen = s.keyLen := rfl
@[simp] theorem State.raise_err (s : State) (f : Flag) : (s.raise f).err = s.err ||| f.mask := rfl
@[simp] theorem State.raise_rdata (s : State) (f : Flag) : (s.raise f).rdata = s.rdata := rfl
@[simp] theorem State.raise_pending (s : State) (f : Flag) : (s.raise f).pending = s.pending := rfl

@[simp] theorem State.clearFlags_crc (s : State) (m : Byte) : (s.clearFlags m).crc = s.crc := rfl
@[simp] theorem State.clearFlags_buf (s : State) (m : Byte) : (s.clearFlags m).buf = s.buf := rfl
@[simp] theorem State.clearFlags_rptr (s : State) (m : Byte) : (s.clearFlags m).rptr = s.rptr := rfl
@[simp] theorem State.clearFlags_key (s : State) (m : Byte) : (s.clearFlags m).key = s.key := rfl
@[simp] theorem State.clearFlags_keyLen (s : State) (m : Byte) : (s.clearFlags m).keyLen = s.keyLen := rfl
@[simp] theorem State.clearFlags_err (s : State) (m : Byte) : (s.clearFlags m).err = s.err &&& ~~~m := rfl
@[simp] theorem State.clearFlags_rdata (s : State) (m : Byte) : (s.clearFlags m).rdata = s.rdata := rfl
@[simp] theorem State.clearFlags_pending (s : State) (m : Byte) : (s.clearFlags m).pending = s.pending := rfl

@[simp] theorem State.setCrc_crc (s : State) (c : Word16) : (s.setCrc c).crc = c := rfl
@[simp] theorem State.setCrc_buf (s : State) (c : Word16) : (s.setCrc c).buf = s.buf := rfl
@[simp] theorem State.setCrc_rptr (s : State) (c : Word16) : (s.setCrc c).rptr = s.rptr := rfl
@[simp] theorem State.setCrc_key (s : State) (c : Word16) : (s.setCrc c).key = s.key := rfl
@[simp] theorem State.setCrc_keyLen (s : State) (c : Word16) : (s.setCrc c).keyLen = s.keyLen := rfl
@[simp] theorem State.setCrc_err (s : State) (c : Word16) : (s.setCrc c).err = s.err := rfl
@[simp] theorem State.setCrc_rdata (s : State) (c : Word16) : (s.setCrc c).rdata = s.rdata := rfl
@[simp] theorem State.setCrc_pending (s : State) (c : Word16) : (s.setCrc c).pending = s.pending := rfl

@[simp] theorem State.rewriteBuf_crc (s : State) (bytes : List Byte) : (s.rewriteBuf bytes).crc = s.crc := rfl
@[simp] theorem State.rewriteBuf_buf (s : State) (bytes : List Byte) : (s.rewriteBuf bytes).buf = bytes := rfl
@[simp] theorem State.rewriteBuf_rptr (s : State) (bytes : List Byte) : (s.rewriteBuf bytes).rptr = 0 := rfl
@[simp] theorem State.rewriteBuf_key (s : State) (bytes : List Byte) : (s.rewriteBuf bytes).key = s.key := rfl
@[simp] theorem State.rewriteBuf_keyLen (s : State) (bytes : List Byte) : (s.rewriteBuf bytes).keyLen = s.keyLen := rfl
@[simp] theorem State.rewriteBuf_err (s : State) (bytes : List Byte) : (s.rewriteBuf bytes).err = s.err := rfl
@[simp] theorem State.rewriteBuf_rdata (s : State) (bytes : List Byte) : (s.rewriteBuf bytes).rdata = s.rdata := rfl
@[simp] theorem State.rewriteBuf_pending (s : State) (bytes : List Byte) : (s.rewriteBuf bytes).pending = s.pending := rfl

@[simp] theorem State.append_crc (s : State) (v : Byte) : (s.append v).crc = s.crc := rfl
@[simp] theorem State.append_buf (s : State) (v : Byte) : (s.append v).buf = s.buf ++ [v] := rfl
@[simp] theorem State.append_rptr (s : State) (v : Byte) : (s.append v).rptr = s.rptr := rfl
@[simp] theorem State.append_key (s : State) (v : Byte) : (s.append v).key = s.key := rfl
@[simp] theorem State.append_keyLen (s : State) (v : Byte) : (s.append v).keyLen = s.keyLen := rfl
@[simp] theorem State.append_err (s : State) (v : Byte) : (s.append v).err = s.err := rfl
@[simp] theorem State.append_rdata (s : State) (v : Byte) : (s.append v).rdata = s.rdata := rfl
@[simp] theorem State.append_pending (s : State) (v : Byte) : (s.append v).pending = s.pending := rfl

@[simp] theorem State.advance_crc (s : State) : s.advance.crc = s.crc := rfl
@[simp] theorem State.advance_buf (s : State) : s.advance.buf = s.buf := rfl
@[simp] theorem State.advance_rptr (s : State) : s.advance.rptr = s.rptr + 1 := rfl
@[simp] theorem State.advance_key (s : State) : s.advance.key = s.key := rfl
@[simp] theorem State.advance_keyLen (s : State) : s.advance.keyLen = s.keyLen := rfl
@[simp] theorem State.advance_err (s : State) : s.advance.err = s.err := rfl
@[simp] theorem State.advance_rdata (s : State) : s.advance.rdata = s.rdata := rfl
@[simp] theorem State.advance_pending (s : State) : s.advance.pending = s.pending := rfl

@[simp] theorem State.rewind_crc (s : State) : s.rewind.crc = s.crc := rfl
@[simp] theorem State.rewind_buf (s : State) : s.rewind.buf = s.buf := rfl
@[simp] theorem State.rewind_rptr (s : State) : s.rewind.rptr = 0 := rfl
@[simp] theorem State.rewind_key (s : State) : s.rewind.key = s.key := rfl
@[simp] theorem State.rewind_keyLen (s : State) : s.rewind.keyLen = s.keyLen := rfl
@[simp] theorem State.rewind_err (s : State) : s.rewind.err = s.err := rfl
@[simp] theorem State.rewind_rdata (s : State) : s.rewind.rdata = s.rdata := rfl
@[simp] theorem State.rewind_pending (s : State) : s.rewind.pending = s.pending := rfl

@[simp] theorem State.clearKey_crc (s : State) : s.clearKey.crc = s.crc := rfl
@[simp] theorem State.clearKey_buf (s : State) : s.clearKey.buf = s.buf := rfl
@[simp] theorem State.clearKey_rptr (s : State) : s.clearKey.rptr = s.rptr := rfl
@[simp] theorem State.clearKey_key (s : State) : s.clearKey.key = Vector.replicate 16 0x00 := rfl
@[simp] theorem State.clearKey_keyLen (s : State) : s.clearKey.keyLen = 0 := rfl
@[simp] theorem State.clearKey_err (s : State) : s.clearKey.err = s.err := rfl
@[simp] theorem State.clearKey_rdata (s : State) : s.clearKey.rdata = s.rdata := rfl
@[simp] theorem State.clearKey_pending (s : State) : s.clearKey.pending = s.pending := rfl

@[simp] theorem State.resetAll_crc (s : State) : s.resetAll.crc = 0xFFFF := rfl
@[simp] theorem State.resetAll_buf (s : State) : s.resetAll.buf = [] := rfl
@[simp] theorem State.resetAll_rptr (s : State) : s.resetAll.rptr = 0 := rfl
@[simp] theorem State.resetAll_key (s : State) : s.resetAll.key = Vector.replicate 16 0x00 := rfl
@[simp] theorem State.resetAll_keyLen (s : State) : s.resetAll.keyLen = 0 := rfl
@[simp] theorem State.resetAll_err (s : State) : s.resetAll.err = 0x00 := rfl
@[simp] theorem State.resetAll_rdata (s : State) : s.resetAll.rdata = s.rdata := rfl
@[simp] theorem State.resetAll_pending (s : State) : s.resetAll.pending = s.pending := rfl

@[simp] theorem State.hardReset_crc (s : State) : s.hardReset.crc = 0xFFFF := rfl
@[simp] theorem State.hardReset_buf (s : State) : s.hardReset.buf = [] := rfl
@[simp] theorem State.hardReset_rptr (s : State) : s.hardReset.rptr = 0 := rfl
@[simp] theorem State.hardReset_key (s : State) : s.hardReset.key = Vector.replicate 16 0x00 := rfl
@[simp] theorem State.hardReset_keyLen (s : State) : s.hardReset.keyLen = 0 := rfl
@[simp] theorem State.hardReset_err (s : State) : s.hardReset.err = 0x00 := rfl
@[simp] theorem State.hardReset_rdata (s : State) : s.hardReset.rdata = none := rfl
@[simp] theorem State.hardReset_pending (s : State) : s.hardReset.pending = s.pending := rfl

@[simp] theorem State.present_crc (s : State) (t : Transaction) : (s.present t).crc = s.crc := rfl
@[simp] theorem State.present_buf (s : State) (t : Transaction) : (s.present t).buf = s.buf := rfl
@[simp] theorem State.present_rptr (s : State) (t : Transaction) : (s.present t).rptr = s.rptr := rfl
@[simp] theorem State.present_key (s : State) (t : Transaction) : (s.present t).key = s.key := rfl
@[simp] theorem State.present_keyLen (s : State) (t : Transaction) : (s.present t).keyLen = s.keyLen := rfl
@[simp] theorem State.present_err (s : State) (t : Transaction) : (s.present t).err = s.err := rfl
@[simp] theorem State.present_rdata (s : State) (t : Transaction) : (s.present t).rdata = s.rdata := rfl
@[simp] theorem State.present_pending (s : State) (t : Transaction) : (s.present t).pending = .transaction t :: s.pending := rfl

@[simp] theorem State.raiseIf_crc (s : State) (test : Bool) (f : Flag) : (s.raiseIf test f).crc = s.crc := by
  cases test <;> rfl
@[simp] theorem State.raiseIf_buf (s : State) (test : Bool) (f : Flag) : (s.raiseIf test f).buf = s.buf := by
  cases test <;> rfl
@[simp] theorem State.raiseIf_rptr (s : State) (test : Bool) (f : Flag) : (s.raiseIf test f).rptr = s.rptr := by
  cases test <;> rfl
@[simp] theorem State.raiseIf_key (s : State) (test : Bool) (f : Flag) : (s.raiseIf test f).key = s.key := by
  cases test <;> rfl
@[simp] theorem State.raiseIf_keyLen (s : State) (test : Bool) (f : Flag) : (s.raiseIf test f).keyLen = s.keyLen := by
  cases test <;> rfl
@[simp] theorem State.raiseIf_rdata (s : State) (test : Bool) (f : Flag) : (s.raiseIf test f).rdata = s.rdata := by
  cases test <;> rfl
@[simp] theorem State.raiseIf_pending (s : State) (test : Bool) (f : Flag) : (s.raiseIf test f).pending = s.pending := by
  cases test <;> rfl

/-- A conditional flag adds its mask or nothing. -/
@[simp] theorem State.raiseIf_err (s : State) (test : Bool) (f : Flag) :
    (s.raiseIf test f).err = s.err ||| (if test then f.mask else 0x00) := by
  cases test <;> simp [State.raiseIf]

@[simp] theorem State.raiseIf_false (s : State) (f : Flag) : s.raiseIf false f = s := rfl
@[simp] theorem State.raiseIf_true (s : State) (f : Flag) : s.raiseIf true f = s.raise f := rfl

@[simp] theorem State.putKeyByte_crc (s : State) (v : Byte) : (s.putKeyByte v).crc = s.crc := by
  unfold State.putKeyByte; split <;> rfl
@[simp] theorem State.putKeyByte_buf (s : State) (v : Byte) : (s.putKeyByte v).buf = s.buf := by
  unfold State.putKeyByte; split <;> rfl
@[simp] theorem State.putKeyByte_rptr (s : State) (v : Byte) : (s.putKeyByte v).rptr = s.rptr := by
  unfold State.putKeyByte; split <;> rfl
@[simp] theorem State.putKeyByte_err (s : State) (v : Byte) : (s.putKeyByte v).err = s.err := by
  unfold State.putKeyByte; split <;> rfl
@[simp] theorem State.putKeyByte_rdata (s : State) (v : Byte) : (s.putKeyByte v).rdata = s.rdata := by
  unfold State.putKeyByte; split <;> rfl
@[simp] theorem State.putKeyByte_pending (s : State) (v : Byte) : (s.putKeyByte v).pending = s.pending := by
  unfold State.putKeyByte; split <;> rfl

/-- A key byte before the sixteenth is stored at `key_len`, which counts up (spec 42 R142). -/
theorem State.putKeyByte_of_lt (s : State) (v : Byte) (h : s.keyLen < 16) :
    s.putKeyByte v = { s with key := s.key.set s.keyLen v h, keyLen := s.keyLen + 1 } := by
  have hset : s.key.setIfInBounds s.keyLen v = s.key.set s.keyLen v h := by
    ext i hi
    simp [Vector.getElem_set, Vector.getElem_setIfInBounds]
  simp [State.putKeyByte, Config.keyBytes, h, hset]

/-- A further key byte is discarded and `key_len` is 17 (spec 42 R142). -/
theorem State.putKeyByte_of_ge (s : State) (v : Byte) (h : 16 ≤ s.keyLen) : s.putKeyByte v = { s with keyLen := 17 } := by
  simp [State.putKeyByte, Config.keyBytes, Nat.not_lt.mpr h]

end Sys2Proof.Machine
end

