-- ==== Sys2Proof/Laws/Bytes.lean ====
section
/-! SUPPORT. The small lemmas of the byte-sequence and arithmetic functions: lengths, elements, flag masks, and the one
law of the open cipher. -/

namespace Sys2Proof.Machine

/-! ### Byte sequences -/

@[simp] theorem wordBytes_length (c : Word16) : (wordBytes c).length = 2 := rfl
@[simp] theorem zeros_length (n : Nat) : (zeros n).length = n := List.length_replicate
@[simp] theorem slice_length (bytes : List Byte) (a b : Nat) : (slice bytes a b).length = min b bytes.length - a := by
  simp [slice]
@[simp] theorem slice_zero (bytes : List Byte) (b : Nat) : slice bytes 0 b = bytes.take b := rfl

/-- A byte read inside the sequence is the byte there. -/
theorem byteAt_of_lt (bytes : List Byte) (i : Nat) (h : i < bytes.length) : byteAt bytes i = bytes[i] := by
  simp [byteAt, h]

/-- A byte read inside the first part of a sequence does not see the rest. -/
theorem byteAt_append_left (a b : List Byte) (i : Nat) (h : i < a.length) : byteAt (a ++ b) i = byteAt a i := by
  simp [byteAt, List.getElem?_append_left h]

/-- A byte read past the first part of a sequence is a byte of the rest. -/
theorem byteAt_append_right (a b : List Byte) (i : Nat) (h : a.length ≤ i) :
    byteAt (a ++ b) i = byteAt b (i - a.length) := by
  simp [byteAt, List.getElem?_append_right h]

/-- A word as an integer, from its two bytes (spec 20 R56). -/
theorem toNat_eq_bytes (c : Word16) : c.toNat = 256 * (hiByte c).toNat + (loByte c).toNat := by
  have := c.isLt
  simp only [hiByte, loByte, BitVec.extractLsb'_toNat, Nat.shiftRight_eq_div_pow]
  omega

/-- The two bytes of a word determine it (spec 20 R54). -/
theorem word_ext (c d : Word16) (hlo : loByte c = loByte d) (hhi : hiByte c = hiByte d) : c = d :=
  BitVec.eq_of_toNat_eq (by rw [toNat_eq_bytes c, toNat_eq_bytes d, hlo, hhi])

/-- A length that fits one byte is read back from it (spec 43 R161). -/
theorem natLo_toNat (n : Nat) (h : n < 256) : (natLo n).toNat = n := by simp [natLo, Nat.mod_eq_of_lt h]

/-! ### The checksum -/

@[simp] theorem crcBytes_nil (c : Word16) : crcBytes c [] = c := rfl
@[simp] theorem crcBytes_cons (c : Word16) (b : Byte) (rest : List Byte) :
    crcBytes c (b :: rest) = crcBytes (crcStep c b) rest := rfl

/-! ### The framer -/

@[simp] theorem framePrefix_length (body : List Byte) : (framePrefix body).length = body.length + 2 := by
  simp [framePrefix]
@[simp] theorem frameOf_length (body : List Byte) : (frameOf body).length = body.length + 4 := by
  simp [frameOf]

/-- A frame without its last two bytes is header, length byte and body. -/
theorem frameOf_take (body : List Byte) : (frameOf body).take (body.length + 2) = framePrefix body := by
  rw [frameOf, List.take_append_of_le_length (by simp), List.take_of_length_le (by simp)]

/-- The pad is shorter than a block (spec 43 R166). -/
theorem padLen_lt (n : Nat) : padLen n < 16 := Nat.mod_lt _ (by decide)

/-- The pad completes the last block (spec 43 R166). -/
theorem add_padLen_mod (n : Nat) : (n + padLen n) % 16 = 0 := by unfold padLen; omega

/-- A whole number of blocks gets no pad (spec 43 R166). -/
theorem padLen_of_mod (n : Nat) (h : n % 16 = 0) : padLen n = 0 := by unfold padLen; omega

/-! ### The cipher unit -/

/-- A block read from sixteen or more bytes is the first sixteen of them. -/
theorem blockOf_toList (bytes : List Byte) (h : 16 ≤ bytes.length) : (blockOf bytes).toList = bytes.take 16 := by
  apply List.ext_getElem
  · simp; omega
  · intro i h1 h2
    have hi : i < bytes.length := by simp at h1; omega
    simp [blockOf, byteAt, hi]

/-- Only the first sixteen bytes of a sequence make its block. -/
theorem blockOf_toList_append (b : Block) (rest : List Byte) : blockOf (b.toList ++ rest) = b := by
  ext i hi
  simp [blockOf, byteAt, List.getElem?_append]

/-- Electronic codebook keeps the length of the buffer (spec 42 R145). -/
theorem ecbBlocks_length (f : Block → Block) (n : Nat) (bytes : List Byte) (h : 16 * n ≤ bytes.length) :
    (ecbBlocks f n bytes).length = bytes.length := by
  induction n generalizing bytes with
  | zero => rfl
  | succ n ih =>
    have := ih (bytes.drop 16) (by simp; omega)
    simp [ecbBlocks, this]
    omega

/-- `D(k, E(k, p)) = p`, the one law of `CIPHER` (spec 42 R140). -/
@[simp] theorem D_E (k : Key) (p : Block) : Config.D k (Config.E k p) = p := Equiv.symm_apply_apply _ _

/-- `E(k, D(k, c)) = c`, which R140 derives. -/
@[simp] theorem E_D (k : Key) (c : Block) : Config.E k (Config.D k c) = c := Equiv.apply_symm_apply _ _

/-! ### The flags -/

/-- A flag's mask has its own bit and no other (spec 10 R30). -/
theorem Flag.mask_getLsbD (f : Flag) (k : Nat) (h : k < 8) : f.mask.getLsbD k = decide (k = f.bit) := by
  interval_cases k <;> cases f <;> rfl

/-- Two flags with one bit are one flag. -/
theorem Flag.bit_injective (f g : Flag) (h : f.bit = g.bit) : f = g := by
  cases f <;> cases g <;> first | rfl | exact absurd h (by decide)

theorem Flag.bit_lt (f : Flag) : f.bit < 8 := by cases f <;> decide

/-! ### The platform's address map (spec 20 R50) -/

/-- The block sees of a register's platform address exactly the register's offset, whatever `BASE` is. -/
theorem offsetOf_platformAddr (addr : BitVec 4) : Config.offsetOf (Config.platformAddr addr) = some addr := by
  have := addr.isLt
  simp [Config.offsetOf, Config.platformAddr]
  omega

/-- An address outside the sixteen reaches no register of the block. -/
theorem offsetOf_outside (a : Nat) (h : a < Config.BASE ∨ Config.BASE + 16 ≤ a) : Config.offsetOf a = none := by
  simp [Config.offsetOf]; omega

end Sys2Proof.Machine
end

