-- ==== Sys2Proof/Laws/Ops.lean ====
section
/-! SUPPORT. One lemma for each shared operation that says once everything it can do, for the provers to cite instead of
unfolding it; and that every shared operation keeps the invariants of spec 10 R32. -/

namespace Sys2Proof.Machine

/-! ### How a transaction ends -/

theorem accept_eq_next (s t : State) : accept s = .next t ↔ t = { s with rdata := none } := by
  simp [accept, eq_comm]

theorem answer_eq_next (b : Byte) (s t : State) : answer b s = .next t ↔ t = { s with rdata := some b } := by
  simp [answer, eq_comm]

/-! ### What the testing operations can do -/

/-- A cipher command: a failing precondition changes only `err`; else the buffer is rewritten (spec 42 R144, R145). -/
theorem ecbCommand_cases (f : Key → Block → Block) (s : State) :
    ((keyBad s = true ∨ blockBad s = true) ∧ ecbCommand f s = { s with
      err := s.err ||| (if keyBad s then Flag.mask .keylen else 0x00) ||| (if blockBad s then Flag.mask .blklen else 0x00) }) ∨
    (s.keyLen = 16 ∧ s.buf.length % 16 = 0 ∧
      ecbCommand f s = { s with buf := ecbBlocks (f s.key) (s.buf.length / 16) s.buf, rptr := 0 }) := by
  by_cases hk : keyBad s = true
  · left
    refine ⟨.inl hk, ?_⟩
    cases hb : blockBad s <;> simp [ecbCommand, hk, hb, State.raise]
  · by_cases hb : blockBad s = true
    · left
      refine ⟨.inr hb, ?_⟩
      simp [ecbCommand, hk, hb, State.raise]
    · right
      have hk' : s.keyLen = 16 := by simpa [keyBad, Config.keyBytes] using hk
      have hb' : s.buf.length % 16 = 0 := by simpa [blockBad, Config.blockBytes] using hb
      exact ⟨hk', hb', by simp [ecbCommand, hk, hb, State.rewriteBuf, Config.blockBytes]⟩

/-- `FRM.ENC`: too long a body changes only `err`; else the buffer becomes the frame (spec 43 R163). -/
theorem frameEncode_cases (s : State) :
    (253 < s.buf.length ∧ frameEncode s = s.raise .ovf) ∨
    (s.buf.length ≤ 253 ∧
      frameEncode s = { s with buf := frameOf s.buf, crc := checksum (framePrefix s.buf), rptr := 0 }) := by
  by_cases h : 253 < s.buf.length
  · exact .inl ⟨h, by simp [frameEncode, bodyLong, Config.maxBody, h]⟩
  · exact .inr ⟨by omega, by simp [frameEncode, bodyLong, Config.maxBody, h, State.rewriteBuf, State.setCrc]⟩

/-- `FRM.DEC`: short, rejected, or accepted (spec 43 R164). -/
theorem frameDecode_cases (s : State) :
    (s.buf.length < 4 ∧ frameDecode s = s.raise .len) ∨
    (4 ≤ s.buf.length ∧ (hdrBad s.buf || lenBad s.buf || sumBad s.buf) = true ∧ frameDecode s = { s with
      crc := frameSum s.buf,
      err := s.err ||| (if hdrBad s.buf then Flag.mask .hdr else 0x00) ||| (if lenBad s.buf then Flag.mask .len else 0x00)
        ||| (if sumBad s.buf then Flag.mask .csum else 0x00) }) ∨
    (4 ≤ s.buf.length ∧ hdrBad s.buf = false ∧ lenBad s.buf = false ∧ sumBad s.buf = false ∧
      frameDecode s = { s with crc := frameSum s.buf, buf := bodyOf s.buf, rptr := 0 }) := by
  by_cases h4 : s.buf.length < 4
  · exact .inl ⟨h4, by simp [frameDecode, frameShort, h4]⟩
  · right
    cases hh : hdrBad s.buf <;> cases hl : lenBad s.buf <;> cases hs : sumBad s.buf <;>
      simp [frameDecode, frameShort, raiseFrameFlags, h4, hh, hl, hs, State.raise, State.setCrc, State.rewriteBuf] <;>
      omega

/-- `FRM.TRIM`: a bad length changes only `err`; else the buffer is cut (spec 43 R167). -/
theorem frameTrim_cases (s : State) :
    ((s.buf.length < 2 ∨ s.buf.length < declaredSize s.buf) ∧ frameTrim s = s.raise .len) ∨
    (2 ≤ s.buf.length ∧ declaredSize s.buf ≤ s.buf.length ∧
      frameTrim s = { s with buf := s.buf.take (declaredSize s.buf), rptr := 0 }) := by
  by_cases h : trimBad s.buf = true
  · left
    refine ⟨by simpa [trimBad] using h, by simp [frameTrim, h]⟩
  · right
    have h' := h
    simp only [trimBad, Bool.or_eq_true, decide_eq_true_eq, not_or, Nat.not_lt] at h'
    exact ⟨h'.1, h'.2, by simp [frameTrim, h, State.rewriteBuf]⟩

/-- Where the step's input comes from (spec 20 R61; 70 R221). -/
theorem step_cases (s : State) :
    (s.pending = [] ∧ step s = .next s) ∨
    (∃ rest, s.pending = .hardReset :: rest ∧ step s = .next (State.hardReset { s with pending := rest })) ∨
    (∃ t rest, s.pending = .transaction t :: rest ∧ step s = exec (decode t) { s with pending := rest }) := by
  rcases hp : s.pending with _ | ⟨input, rest⟩
  · exact .inl ⟨rfl, by simp [step, takeInput, hp]⟩
  · cases input with
    | hardReset => exact .inr (.inl ⟨rest, rfl, by simp [step, takeInput, hp]⟩)
    | transaction t => exact .inr (.inr ⟨t, rest, rfl, by simp [step, takeInput, hp]⟩)

/-! ### The invariants of spec 10 R32, operation by operation -/

/-- Only the buffer, the read pointer, the key and its length matter to the invariants. -/
theorem State.Inv.congr {s t : State} (h : s.Inv) (hb : t.buf = s.buf) (hr : t.rptr = s.rptr) (hk : t.key = s.key)
    (hl : t.keyLen = s.keyLen) : t.Inv := by
  simpa only [State.Inv, State.blen, hb, hr, hk, hl] using h

theorem State.Inv.rewriteBuf {s : State} (h : s.Inv) (bytes : List Byte) (hb : bytes.length ≤ 272) :
    (s.rewriteBuf bytes).Inv :=
  ⟨Nat.zero_le _, hb, h.2.2⟩

theorem State.Inv.append {s : State} (h : s.Inv) (v : Byte) (hb : s.buf.length < 272) : (s.append v).Inv := by
  refine ⟨?_, ?_, h.2.2⟩
  · have := h.1; simp at this ⊢; omega
  · simp [Config.bufCap]; omega

theorem State.Inv.advance {s : State} (h : s.Inv) (hr : s.rptr ≠ s.buf.length) : s.advance.Inv := by
  refine ⟨?_, h.2⟩
  have := h.1
  simp at this ⊢; omega

theorem State.Inv.rewind {s : State} (h : s.Inv) : s.rewind.Inv := ⟨Nat.zero_le _, h.2⟩

theorem State.Inv.clearKey {s : State} (h : s.Inv) : s.clearKey.Inv :=
  ⟨h.1, h.2.1, by simp, fun i _ => by simp⟩

theorem State.Inv.putKeyByte {s : State} (h : s.Inv) (v : Byte) : (s.putKeyByte v).Inv := by
  obtain ⟨h1, h2, h3, h4⟩ := h
  by_cases hl : s.keyLen < 16
  · rw [State.putKeyByte_of_lt s v hl]
    refine ⟨h1, h2, by simp [Config.keyBytes]; omega, fun i hi => ?_⟩
    have hne : s.keyLen ≠ i.val := by simp [Config.keyBytes] at hi; omega
    have := h4 i (by simp [Config.keyBytes] at hi ⊢; omega)
    simpa [Vector.getElem_set, hne] using this
  · rw [State.putKeyByte_of_ge s v (by omega)]
    refine ⟨h1, h2, by simp [Config.keyBytes], fun i hi => ?_⟩
    simp [Config.keyBytes] at hi
    omega

theorem State.resetAll_inv (s : State) : s.resetAll.Inv :=
  ⟨Nat.le_refl _, by simp [Config.bufCap], by simp, fun i _ => by simp⟩

end Sys2Proof.Machine
end

