-- ==== Sys2Proof/Laws/PerInstr.lean ====
section
/-! SUPPORT. Statements made for each instruction as syntax, one lemma per constructor of Instr. -/

/-- The family `EncodesRow`: the word that encodes a well-formed instruction is one of the words of the instruction's row
of spec/opcode_table.json, at every value of its operand. -/
def Sys2Proof.Laws.EncodesRow.Statement (i : Sys2Proof.Instr) : Prop :=
  i.wf = true → i.row.covers (Sys2Proof.encodeWord i) = true

theorem Sys2Proof.Laws.EncodesRow.nop : Sys2Proof.Laws.EncodesRow.Statement .nop := by
  unfold Sys2Proof.Laws.EncodesRow.Statement; decide

theorem Sys2Proof.Laws.EncodesRow.srst : Sys2Proof.Laws.EncodesRow.Statement .srst := by
  unfold Sys2Proof.Laws.EncodesRow.Statement; decide

theorem Sys2Proof.Laws.EncodesRow.bufClr : Sys2Proof.Laws.EncodesRow.Statement .bufClr := by
  unfold Sys2Proof.Laws.EncodesRow.Statement; decide

theorem Sys2Proof.Laws.EncodesRow.bufRew : Sys2Proof.Laws.EncodesRow.Statement .bufRew := by
  unfold Sys2Proof.Laws.EncodesRow.Statement; decide

theorem Sys2Proof.Laws.EncodesRow.keyClr : Sys2Proof.Laws.EncodesRow.Statement .keyClr := by
  unfold Sys2Proof.Laws.EncodesRow.Statement; decide

theorem Sys2Proof.Laws.EncodesRow.crcInit : Sys2Proof.Laws.EncodesRow.Statement .crcInit := by
  unfold Sys2Proof.Laws.EncodesRow.Statement; decide

theorem Sys2Proof.Laws.EncodesRow.crcBuf : Sys2Proof.Laws.EncodesRow.Statement .crcBuf := by
  unfold Sys2Proof.Laws.EncodesRow.Statement; decide

theorem Sys2Proof.Laws.EncodesRow.ecbEnc : Sys2Proof.Laws.EncodesRow.Statement .ecbEnc := by
  unfold Sys2Proof.Laws.EncodesRow.Statement; decide

theorem Sys2Proof.Laws.EncodesRow.ecbDec : Sys2Proof.Laws.EncodesRow.Statement .ecbDec := by
  unfold Sys2Proof.Laws.EncodesRow.Statement; decide

theorem Sys2Proof.Laws.EncodesRow.frmEnc : Sys2Proof.Laws.EncodesRow.Statement .frmEnc := by
  unfold Sys2Proof.Laws.EncodesRow.Statement; decide

theorem Sys2Proof.Laws.EncodesRow.frmDec : Sys2Proof.Laws.EncodesRow.Statement .frmDec := by
  unfold Sys2Proof.Laws.EncodesRow.Statement; decide

theorem Sys2Proof.Laws.EncodesRow.frmPad : Sys2Proof.Laws.EncodesRow.Statement .frmPad := by
  unfold Sys2Proof.Laws.EncodesRow.Statement; decide

theorem Sys2Proof.Laws.EncodesRow.frmTrim : Sys2Proof.Laws.EncodesRow.Statement .frmTrim := by
  unfold Sys2Proof.Laws.EncodesRow.Statement; decide

theorem Sys2Proof.Laws.EncodesRow.ill0505 : Sys2Proof.Laws.EncodesRow.Statement .ill0505 := by
  unfold Sys2Proof.Laws.EncodesRow.Statement; decide

theorem Sys2Proof.Laws.EncodesRow.ill0607 (op : Sys2Proof.Byte) :
    Sys2Proof.Laws.EncodesRow.Statement (.ill0607 op) := by
  unfold Sys2Proof.Laws.EncodesRow.Statement; revert op; decide

theorem Sys2Proof.Laws.EncodesRow.ill080F (op : Sys2Proof.Byte) :
    Sys2Proof.Laws.EncodesRow.Statement (.ill080F op) := by
  unfold Sys2Proof.Laws.EncodesRow.Statement; revert op; decide

theorem Sys2Proof.Laws.EncodesRow.ill1213 (op : Sys2Proof.Byte) :
    Sys2Proof.Laws.EncodesRow.Statement (.ill1213 op) := by
  unfold Sys2Proof.Laws.EncodesRow.Statement; revert op; decide

theorem Sys2Proof.Laws.EncodesRow.ill1417 (op : Sys2Proof.Byte) :
    Sys2Proof.Laws.EncodesRow.Statement (.ill1417 op) := by
  unfold Sys2Proof.Laws.EncodesRow.Statement; revert op; decide

theorem Sys2Proof.Laws.EncodesRow.ill181F (op : Sys2Proof.Byte) :
    Sys2Proof.Laws.EncodesRow.Statement (.ill181F op) := by
  unfold Sys2Proof.Laws.EncodesRow.Statement; revert op; decide

theorem Sys2Proof.Laws.EncodesRow.ill2223 (op : Sys2Proof.Byte) :
    Sys2Proof.Laws.EncodesRow.Statement (.ill2223 op) := by
  unfold Sys2Proof.Laws.EncodesRow.Statement; revert op; decide

theorem Sys2Proof.Laws.EncodesRow.ill2427 (op : Sys2Proof.Byte) :
    Sys2Proof.Laws.EncodesRow.Statement (.ill2427 op) := by
  unfold Sys2Proof.Laws.EncodesRow.Statement; revert op; decide

theorem Sys2Proof.Laws.EncodesRow.ill282F (op : Sys2Proof.Byte) :
    Sys2Proof.Laws.EncodesRow.Statement (.ill282F op) := by
  unfold Sys2Proof.Laws.EncodesRow.Statement; revert op; decide

theorem Sys2Proof.Laws.EncodesRow.ill3437 (op : Sys2Proof.Byte) :
    Sys2Proof.Laws.EncodesRow.Statement (.ill3437 op) := by
  unfold Sys2Proof.Laws.EncodesRow.Statement; revert op; decide

theorem Sys2Proof.Laws.EncodesRow.ill383F (op : Sys2Proof.Byte) :
    Sys2Proof.Laws.EncodesRow.Statement (.ill383F op) := by
  unfold Sys2Proof.Laws.EncodesRow.Statement; revert op; decide

theorem Sys2Proof.Laws.EncodesRow.ill407F (op : Sys2Proof.Byte) :
    Sys2Proof.Laws.EncodesRow.Statement (.ill407F op) := by
  unfold Sys2Proof.Laws.EncodesRow.Statement; revert op; decide

theorem Sys2Proof.Laws.EncodesRow.ill80FF (op : Sys2Proof.Byte) :
    Sys2Proof.Laws.EncodesRow.Statement (.ill80FF op) := by
  unfold Sys2Proof.Laws.EncodesRow.Statement; revert op; decide

theorem Sys2Proof.Laws.EncodesRow.wrStatus (data : Sys2Proof.Byte) :
    Sys2Proof.Laws.EncodesRow.Statement (.wrStatus data) := by
  unfold Sys2Proof.Laws.EncodesRow.Statement; revert data; decide

theorem Sys2Proof.Laws.EncodesRow.wrErr (data : Sys2Proof.Byte) :
    Sys2Proof.Laws.EncodesRow.Statement (.wrErr data) := by
  unfold Sys2Proof.Laws.EncodesRow.Statement; revert data; decide

theorem Sys2Proof.Laws.EncodesRow.wrCrcLo (data : Sys2Proof.Byte) :
    Sys2Proof.Laws.EncodesRow.Statement (.wrCrcLo data) := by
  unfold Sys2Proof.Laws.EncodesRow.Statement; revert data; decide

theorem Sys2Proof.Laws.EncodesRow.wrCrcHi (data : Sys2Proof.Byte) :
    Sys2Proof.Laws.EncodesRow.Statement (.wrCrcHi data) := by
  unfold Sys2Proof.Laws.EncodesRow.Statement; revert data; decide

theorem Sys2Proof.Laws.EncodesRow.wrCrcDin (data : Sys2Proof.Byte) :
    Sys2Proof.Laws.EncodesRow.Statement (.wrCrcDin data) := by
  unfold Sys2Proof.Laws.EncodesRow.Statement; revert data; decide

theorem Sys2Proof.Laws.EncodesRow.wrBufData (data : Sys2Proof.Byte) :
    Sys2Proof.Laws.EncodesRow.Statement (.wrBufData data) := by
  unfold Sys2Proof.Laws.EncodesRow.Statement; revert data; decide

theorem Sys2Proof.Laws.EncodesRow.wrBlenLo (data : Sys2Proof.Byte) :
    Sys2Proof.Laws.EncodesRow.Statement (.wrBlenLo data) := by
  unfold Sys2Proof.Laws.EncodesRow.Statement; revert data; decide

theorem Sys2Proof.Laws.EncodesRow.wrBlenHi (data : Sys2Proof.Byte) :
    Sys2Proof.Laws.EncodesRow.Statement (.wrBlenHi data) := by
  unfold Sys2Proof.Laws.EncodesRow.Statement; revert data; decide

theorem Sys2Proof.Laws.EncodesRow.wrRptrLo (data : Sys2Proof.Byte) :
    Sys2Proof.Laws.EncodesRow.Statement (.wrRptrLo data) := by
  unfold Sys2Proof.Laws.EncodesRow.Statement; revert data; decide

theorem Sys2Proof.Laws.EncodesRow.wrRptrHi (data : Sys2Proof.Byte) :
    Sys2Proof.Laws.EncodesRow.Statement (.wrRptrHi data) := by
  unfold Sys2Proof.Laws.EncodesRow.Statement; revert data; decide

theorem Sys2Proof.Laws.EncodesRow.wrKeyData (data : Sys2Proof.Byte) :
    Sys2Proof.Laws.EncodesRow.Statement (.wrKeyData data) := by
  unfold Sys2Proof.Laws.EncodesRow.Statement; revert data; decide

theorem Sys2Proof.Laws.EncodesRow.wrKeyLen (data : Sys2Proof.Byte) :
    Sys2Proof.Laws.EncodesRow.Statement (.wrKeyLen data) := by
  unfold Sys2Proof.Laws.EncodesRow.Statement; revert data; decide

theorem Sys2Proof.Laws.EncodesRow.wrRsvdD (data : Sys2Proof.Byte) :
    Sys2Proof.Laws.EncodesRow.Statement (.wrRsvdD data) := by
  unfold Sys2Proof.Laws.EncodesRow.Statement; revert data; decide

theorem Sys2Proof.Laws.EncodesRow.wrRsvdE (data : Sys2Proof.Byte) :
    Sys2Proof.Laws.EncodesRow.Statement (.wrRsvdE data) := by
  unfold Sys2Proof.Laws.EncodesRow.Statement; revert data; decide

theorem Sys2Proof.Laws.EncodesRow.wrRsvdF (data : Sys2Proof.Byte) :
    Sys2Proof.Laws.EncodesRow.Statement (.wrRsvdF data) := by
  unfold Sys2Proof.Laws.EncodesRow.Statement; revert data; decide

theorem Sys2Proof.Laws.EncodesRow.rdCmd : Sys2Proof.Laws.EncodesRow.Statement .rdCmd := by
  unfold Sys2Proof.Laws.EncodesRow.Statement; decide

theorem Sys2Proof.Laws.EncodesRow.rdStatus : Sys2Proof.Laws.EncodesRow.Statement .rdStatus := by
  unfold Sys2Proof.Laws.EncodesRow.Statement; decide

theorem Sys2Proof.Laws.EncodesRow.rdErr : Sys2Proof.Laws.EncodesRow.Statement .rdErr := by
  unfold Sys2Proof.Laws.EncodesRow.Statement; decide

theorem Sys2Proof.Laws.EncodesRow.rdCrcLo : Sys2Proof.Laws.EncodesRow.Statement .rdCrcLo := by
  unfold Sys2Proof.Laws.EncodesRow.Statement; decide

theorem Sys2Proof.Laws.EncodesRow.rdCrcHi : Sys2Proof.Laws.EncodesRow.Statement .rdCrcHi := by
  unfold Sys2Proof.Laws.EncodesRow.Statement; decide

theorem Sys2Proof.Laws.EncodesRow.rdCrcDin : Sys2Proof.Laws.EncodesRow.Statement .rdCrcDin := by
  unfold Sys2Proof.Laws.EncodesRow.Statement; decide

theorem Sys2Proof.Laws.EncodesRow.rdBufData : Sys2Proof.Laws.EncodesRow.Statement .rdBufData := by
  unfold Sys2Proof.Laws.EncodesRow.Statement; decide

theorem Sys2Proof.Laws.EncodesRow.rdBlenLo : Sys2Proof.Laws.EncodesRow.Statement .rdBlenLo := by
  unfold Sys2Proof.Laws.EncodesRow.Statement; decide

theorem Sys2Proof.Laws.EncodesRow.rdBlenHi : Sys2Proof.Laws.EncodesRow.Statement .rdBlenHi := by
  unfold Sys2Proof.Laws.EncodesRow.Statement; decide

theorem Sys2Proof.Laws.EncodesRow.rdRptrLo : Sys2Proof.Laws.EncodesRow.Statement .rdRptrLo := by
  unfold Sys2Proof.Laws.EncodesRow.Statement; decide

theorem Sys2Proof.Laws.EncodesRow.rdRptrHi : Sys2Proof.Laws.EncodesRow.Statement .rdRptrHi := by
  unfold Sys2Proof.Laws.EncodesRow.Statement; decide

theorem Sys2Proof.Laws.EncodesRow.rdKeyData : Sys2Proof.Laws.EncodesRow.Statement .rdKeyData := by
  unfold Sys2Proof.Laws.EncodesRow.Statement; decide

theorem Sys2Proof.Laws.EncodesRow.rdKeyLen : Sys2Proof.Laws.EncodesRow.Statement .rdKeyLen := by
  unfold Sys2Proof.Laws.EncodesRow.Statement; decide

theorem Sys2Proof.Laws.EncodesRow.rdRsvdD : Sys2Proof.Laws.EncodesRow.Statement .rdRsvdD := by
  unfold Sys2Proof.Laws.EncodesRow.Statement; decide

theorem Sys2Proof.Laws.EncodesRow.rdRsvdE : Sys2Proof.Laws.EncodesRow.Statement .rdRsvdE := by
  unfold Sys2Proof.Laws.EncodesRow.Statement; decide

theorem Sys2Proof.Laws.EncodesRow.rdRsvdF : Sys2Proof.Laws.EncodesRow.Statement .rdRsvdF := by
  unfold Sys2Proof.Laws.EncodesRow.Statement; decide
end

