-- ==== Sys2Proof/Machine/Assembler.lean ====
section
/-! DEFINITION. The written syntax of host scripts, one line at a time, over lists of characters (spec 30 R79, R80):
register and command names, byte and address literals, and the pseudo-instructions. Names are case-sensitive. -/

namespace Sys2Proof.Machine

/-- A register's address from its name (spec 10 R34). -/
def regOfName (tok : List Char) : Option (BitVec 4) :=
  if tok = "CMD".toList then some 0x0
  else if tok = "STATUS".toList then some 0x1
  else if tok = "ERR".toList then some 0x2
  else if tok = "CRC_LO".toList then some 0x3
  else if tok = "CRC_HI".toList then some 0x4
  else if tok = "CRC_DIN".toList then some 0x5
  else if tok = "BUF_DATA".toList then some 0x6
  else if tok = "BLEN_LO".toList then some 0x7
  else if tok = "BLEN_HI".toList then some 0x8
  else if tok = "RPTR_LO".toList then some 0x9
  else if tok = "RPTR_HI".toList then some 0xA
  else if tok = "KEY_DATA".toList then some 0xB
  else if tok = "KEY_LEN".toList then some 0xC
  else none

/-- A command's opcode from its mnemonic (spec 30 R74). -/
def opcodeOfName (tok : List Char) : Option Byte :=
  if tok = "NOP".toList then some 0x00
  else if tok = "SRST".toList then some 0x01
  else if tok = "BUF.CLR".toList then some 0x02
  else if tok = "BUF.REW".toList then some 0x03
  else if tok = "KEY.CLR".toList then some 0x04
  else if tok = "CRC.INIT".toList then some 0x10
  else if tok = "CRC.BUF".toList then some 0x11
  else if tok = "ECB.ENC".toList then some 0x20
  else if tok = "ECB.DEC".toList then some 0x21
  else if tok = "FRM.ENC".toList then some 0x30
  else if tok = "FRM.DEC".toList then some 0x31
  else if tok = "FRM.PAD".toList then some 0x32
  else if tok = "FRM.TRIM".toList then some 0x33
  else none

/-- The value of a digit in the given base (10 or 16, capitals). -/
def digitOf (base : Nat) (c : Char) : Option Nat :=
  let v := if '0' ≤ c ∧ c ≤ '9' then c.toNat - '0'.toNat else if 'A' ≤ c ∧ c ≤ 'F' then c.toNat - 'A'.toNat + 10 else base
  if v < base then some v else none

/-- A numeral: none when empty or when a character is no digit. -/
def numeral (base : Nat) (digits : List Char) : Option Nat :=
  if digits.isEmpty then none else digits.foldl (fun acc c => acc.bind fun n => (digitOf base c).map (base * n + ·)) (some 0)

/-- A hexadecimal numeral of exactly `k` digits. -/
def hexOf (k : Nat) (digits : List Char) : Option Nat := if digits.length = k then numeral 16 digits else none

/-- `<byte>`: `0x00` to `0xFF`, or decimal 0 to 255 (spec 30 R79). -/
def byteOf : List Char → Option Byte
  | '0' :: 'x' :: digits => (hexOf 2 digits).map (BitVec.ofNat 8)
  | digits => (numeral 10 digits).bind fun n => if n ≤ 255 then some (BitVec.ofNat 8 n) else none

/-- `<reg>`: a register name, or a literal address `0x0` to `0xF` (spec 30 R79). -/
def regOf : List Char → Option (BitVec 4)
  | '0' :: 'x' :: digits => (hexOf 1 digits).map (BitVec.ofNat 4)
  | name => regOfName name

/-- The value of `RD16 CRC = 0xhhll` (spec 30 R80). -/
def wordOf : List Char → Option Word16
  | '0' :: 'x' :: digits => (hexOf 4 digits).map (BitVec.ofNat 16)
  | _ => none

/-- A sequence of bytes, two hexadecimal digits each without prefix (spec 00 R7; log 11). -/
def bytesOf (toks : List (List Char)) : Option (List Byte) := toks.mapM fun tok => (hexOf 2 tok).map (BitVec.ofNat 8)

/-- The text before a comment (spec 30 R79: "`;` starts a comment"). -/
def stripComment (line : List Char) : List Char := line.takeWhile fun c => c != ';'

/-- A word is put before the tokens after it, if it is not empty. -/
def pushToken (tok : List Char) (rest : List (List Char)) : List (List Char) := if tok.isEmpty then rest else tok :: rest

/-- The tokens of a line: words between spaces; `,` and `=` are tokens of their own. -/
def tokensOf (line : List Char) : List (List Char) :=
  let r := line.foldr (fun c (acc : List Char × List (List Char)) =>
    if c = ' ' then ([], pushToken acc.1 acc.2)
    else if c = ',' ∨ c = '=' then ([], [c] :: pushToken acc.1 acc.2)
    else (c :: acc.1, acc.2)) ([], [])
  pushToken r.1 r.2

/-- `DRAIN n = b0 ... b(n-1)`: exactly `n` bytes are expected (spec 30 R80). -/
def drainLine (n : Nat) (bytes : List Byte) : Option ScriptLine := if bytes.length = n then some (.drain n (some bytes)) else none

/-- A line from its tokens; none when it is no line of the syntax (spec 30 R79, R80). -/
def lineOfTokens : List (List Char) → Option ScriptLine
  | [] => some .blank
  | [name] => if name = "CLRERR".toList then some .clrErr else (opcodeOfName name).map .command
  | word :: rest =>
    if word = "WR".toList then
      match rest with
      | [reg, [','], b] => (regOf reg).bind fun a => (byteOf b).map (.wr a)
      | _ => none
    else if word = "RD".toList then
      match rest with
      | [reg] => (regOf reg).map fun a => .rd a none
      | [reg, ['='], b] => (regOf reg).bind fun a => (byteOf b).map fun v => .rd a (some v)
      | _ => none
    else if word = "LOAD".toList then (bytesOf rest).map .load
    else if word = "KEY".toList then (bytesOf rest).map .key
    else if word = "CRC".toList then (bytesOf rest).map .crc
    else if word = "DRAIN".toList then
      match rest with
      | [n] => (numeral 10 n).map fun k => .drain k none
      | n :: ['='] :: bytes => (numeral 10 n).bind fun k => (bytesOf bytes).bind (drainLine k)
      | _ => none
    else if word = "RD16".toList then
      match rest with
      | [reg] => if reg = "CRC".toList then some (.rd16Crc none) else none
      | [reg, ['='], v] => if reg = "CRC".toList then (wordOf v).map fun x => .rd16Crc (some x) else none
      | _ => none
    else none

/-- One line of a host script from its text (spec 30 R79). -/
def parseLine (line : String) : Option ScriptLine := lineOfTokens (tokensOf (stripComment line.toList))

/-- A script, one transaction or pseudo-instruction a line (spec 30 R79). -/
def assemble (lines : List String) : Option (List Scripted) := (lines.mapM parseLine).map fun ls => ls.flatMap ScriptLine.expand

end Sys2Proof.Machine
end

