-- ==== Sys2Proof/Tests/Slice0.lean ====
section
/-! SUPPORT. The model's own tests: expected results are those of the spec's examples and of spec/95_test_vectors.md, or
worked out by hand from the rules. Then, for every statement that has hypotheses, a witness that meets them, clause by
clause and at the boundaries. -/

namespace Sys2Proof.Tests

open Sys2Proof Sys2Proof.Machine

/-! ### Helpers -/

/-- The state an outcome leaves, if it is a next state. -/
def nextOf : Host.Outcome State Fault Refusal → Option State
  | .next s => some s
  | .fault _ => none
  | .refused _ => none

/-- The reset state with a buffer and a read position. -/
def withBuf (buf : List Byte) (rptr : Nat := 0) : State := { State.reset with buf := buf, rptr := rptr }

/-- The test key KT of spec 95: `key[i] = i`. -/
def kt : Key := Vector.ofFn fun i => BitVec.ofNat 8 i.val

/-- The test cipher XOR of spec 95; no claim about the hardware. -/
def xorCipher (k p : Block) : Block := Vector.ofFn fun i => p[i] ^^^ k[i]

/-- A value of one field after an instruction. -/
def after {α : Type} (i : Instr) (s : State) (f : State → α) : Option α := (nextOf (exec i s)).map f

/-- The frame of spec 90 C1's corrected example: body AA BB. -/
def goodFrame : List Byte := [0xFE, 0x04, 0xAA, 0xBB, 0x4E, 0xDE]

/-! ### Decoding: words written out bit by bit from spec 30 R70, R74, R76, R77 -/

theorem test_decode_commands : ∀ p ∈ ([(0b0001000000000000, .nop), (0b0001000000000001, .srst),
    (0b0001000000000010, .bufClr), (0b0001000000000011, .bufRew), (0b0001000000000100, .keyClr),
    (0b0001000000010000, .crcInit), (0b0001000000010001, .crcBuf), (0b0001000000100000, .ecbEnc),
    (0b0001000000100001, .ecbDec), (0b0001000000110000, .frmEnc), (0b0001000000110001, .frmDec),
    (0b0001000000110010, .frmPad), (0b0001000000110011, .frmTrim)] : List (Word16 × Instr)),
    decodeWord p.1 = .ok p.2 := by decide

theorem test_decode_illegal : ∀ p ∈ ([(0b0001000000000101, .ill0505), (0b0001000000000110, .ill0607 0x06),
    (0b0001000000001111, .ill080F 0x0F), (0b0001000000010011, .ill1213 0x13), (0b0001000000010100, .ill1417 0x14),
    (0b0001000000011000, .ill181F 0x18), (0b0001000000100010, .ill2223 0x22), (0b0001000000100111, .ill2427 0x27),
    (0b0001000000101000, .ill282F 0x28), (0b0001000000110100, .ill3437 0x34), (0b0001000000111111, .ill383F 0x3F),
    (0b0001000001000000, .ill407F 0x40), (0b0001000011111111, .ill80FF 0xFF)] : List (Word16 × Instr)),
    decodeWord p.1 = .ok p.2 := by decide

theorem test_decode_writes : ∀ p ∈ ([(0b0001000111111111, .wrStatus 0xFF), (0b0001001000000111, .wrErr 0x07),
    (0b0001001100000000, .wrCrcLo 0x00), (0b0001010000000001, .wrCrcHi 0x01), (0b0001010110000001, .wrCrcDin 0x81),
    (0b0001011010101010, .wrBufData 0xAA), (0b0001011100000111, .wrBlenLo 0x07), (0b0001100000000001, .wrBlenHi 0x01),
    (0b0001100100000001, .wrRptrLo 0x01), (0b0001101000000010, .wrRptrHi 0x02), (0b0001101100001111, .wrKeyData 0x0F),
    (0b0001110000010000, .wrKeyLen 0x10), (0b0001110111111111, .wrRsvdD 0xFF), (0b0001111000000011, .wrRsvdE 0x03),
    (0b0001111110000000, .wrRsvdF 0x80)] : List (Word16 × Instr)),
    decodeWord p.1 = .ok p.2 := by decide

theorem test_decode_reads : ∀ p ∈ ([(0b0000000000000000, .rdCmd), (0b0000000100000000, .rdStatus),
    (0b0000001000000000, .rdErr), (0b0000001100000000, .rdCrcLo), (0b0000010000000000, .rdCrcHi),
    (0b0000010100000000, .rdCrcDin), (0b0000011000000000, .rdBufData), (0b0000011100000000, .rdBlenLo),
    (0b0000100000000000, .rdBlenHi), (0b0000100100000000, .rdRptrLo), (0b0000101000000000, .rdRptrHi),
    (0b0000101100000000, .rdKeyData), (0b0000110000000000, .rdKeyLen), (0b0000110100000000, .rdRsvdD),
    (0b0000111000000000, .rdRsvdE), (0b0000111111010101, .rdRsvdF)] : List (Word16 × Instr)),
    decodeWord p.1 = .ok p.2 := by decide

/-- Bits 15:13 refuse a listing word by name (spec 30 R70, R78). -/
theorem test_decode_refuses_high_bits : decodeWord 0x3000 = .error (.zeroBitsSet 0b001) ∧
    decodeWord 0x8100 = .error (.zeroBitsSet 0b100) ∧ decodeTableWord 16 0x4600 = none := by decide

theorem test_decodeTableWord : decodeTableWord 16 0x1677 = some (.wrBufData 0x77) ∧
    decodeTableWord 16 0x11677 = some (.wrBufData 0x77) ∧ decodeTableWord 24 0x11677 = none := by decide

theorem test_encode_words : encodeWord (.wrErr 0x3F) = 0x123F ∧ encodeWord .rdKeyLen = 0x0C00 ∧
    encodeWord .frmTrim = 0x1033 ∧ encodeWord (.ill80FF 0xFF) = 0x10FF := by decide

/-! ### WellFormed: for each check an ill-formed term that it refuses (spec 30 R77) -/

theorem test_wf_ill0607 : (Instr.ill0607 0x05).wf = false ∧ (Instr.ill0607 0x08).wf = false ∧
    (Instr.ill0607 0x06).wf = true ∧ (Instr.ill0607 0x07).wf = true := by decide

theorem test_wf_ill080F : (Instr.ill080F 0x07).wf = false ∧ (Instr.ill080F 0x10).wf = false ∧
    (Instr.ill080F 0x08).wf = true ∧ (Instr.ill080F 0x0F).wf = true := by decide

theorem test_wf_ill1213 : (Instr.ill1213 0x11).wf = false ∧ (Instr.ill1213 0x14).wf = false ∧
    (Instr.ill1213 0x12).wf = true ∧ (Instr.ill1213 0x13).wf = true := by decide

theorem test_wf_ill1417 : (Instr.ill1417 0x13).wf = false ∧ (Instr.ill1417 0x18).wf = false ∧
    (Instr.ill1417 0x14).wf = true ∧ (Instr.ill1417 0x17).wf = true := by decide

theorem test_wf_ill181F : (Instr.ill181F 0x17).wf = false ∧ (Instr.ill181F 0x20).wf = false ∧
    (Instr.ill181F 0x18).wf = true ∧ (Instr.ill181F 0x1F).wf = true := by decide

theorem test_wf_ill2223 : (Instr.ill2223 0x21).wf = false ∧ (Instr.ill2223 0x24).wf = false ∧
    (Instr.ill2223 0x22).wf = true ∧ (Instr.ill2223 0x23).wf = true := by decide

theorem test_wf_ill2427 : (Instr.ill2427 0x23).wf = false ∧ (Instr.ill2427 0x28).wf = false ∧
    (Instr.ill2427 0x24).wf = true ∧ (Instr.ill2427 0x27).wf = true := by decide

theorem test_wf_ill282F : (Instr.ill282F 0x27).wf = false ∧ (Instr.ill282F 0x30).wf = false ∧
    (Instr.ill282F 0x28).wf = true ∧ (Instr.ill282F 0x2F).wf = true := by decide

theorem test_wf_ill3437 : (Instr.ill3437 0x33).wf = false ∧ (Instr.ill3437 0x38).wf = false ∧
    (Instr.ill3437 0x34).wf = true ∧ (Instr.ill3437 0x37).wf = true := by decide

theorem test_wf_ill383F : (Instr.ill383F 0x37).wf = false ∧ (Instr.ill383F 0x40).wf = false ∧
    (Instr.ill383F 0x38).wf = true ∧ (Instr.ill383F 0x3F).wf = true := by decide

theorem test_wf_ill407F : (Instr.ill407F 0x3F).wf = false ∧ (Instr.ill407F 0x80).wf = false ∧
    (Instr.ill407F 0x40).wf = true ∧ (Instr.ill407F 0x7F).wf = true := by decide

theorem test_wf_ill80FF : (Instr.ill80FF 0x7F).wf = false ∧ (Instr.ill80FF 0x80).wf = true ∧
    (Instr.ill80FF 0xFF).wf = true := by decide

/-! ### The checksum arithmetic -/

/-- The worked step of spec 41 R120, iteration by iteration. -/
theorem test_crcBits_worked_step : (List.range 9).map (fun n => crcBits n 0xFFFE) =
    [0xFFFE, 0x7FFF, 0x9FFE, 0x4FFF, 0x87FE, 0x43FF, 0x81FE, 0x40FF, 0x807E] := by decide

/-- Spec 95 V-CRC-1, V-CRC-6, V-CRC-9 (the catalogue's check value) and V-CRC-12. -/
theorem test_checksum_vectors : checksum [] = 0xFFFF ∧ checksum [0x01, 0x02, 0x03] = 0x6161 ∧
    checksum [0x31, 0x32, 0x33, 0x34, 0x35, 0x36, 0x37, 0x38, 0x39] = 0x4B37 ∧
    checksum [0xFE, 0x04, 0xAA, 0xBB] = 0xDE4E := by decide +kernel

/-- Spec 95 V-CRC-S7, S8, S9. -/
theorem test_crcStep_vectors : crcStep 0x0001 0x00 = 0xC0C1 ∧ crcStep 0x8000 0x00 = 0x0080 ∧
    crcStep 0x6161 0x00 = 0xE8A0 := by decide

/-- Spec 41 R122: the second byte of the example. -/
theorem test_wrCrcDin : after (.wrCrcDin 0x02) { State.reset with crc := 0x807E } State.crc = some 0xE181 := by decide

theorem test_crcInit : after .crcInit { State.reset with crc := 0x6161 } State.crc = some 0xFFFF := by decide

/-- Spec 95 V-CRC-T3, the second fold: it accumulates. -/
theorem test_crcBuf : after .crcBuf { withBuf [0xFE, 0x04, 0xAA, 0xBB] 1 with crc := 0xDE4E }
    (fun s => (s.crc, s.rptr)) = some (0xE839, 1) := by decide +kernel

/-! ### Control and illegal commands -/

theorem test_nop : after .nop (withBuf [0x11] 1) State.err = some 0x00 := by decide

/-- Spec 95 V-BUS-9. -/
theorem test_srst : nextOf (exec .srst
    { withBuf [0x11, 0x22] 1 with crc := 0x807E, key := kt, keyLen := 16, err := 0x10 }) = some State.reset := by decide

/-- Spec 95 V-BUS-6: flags and `crc` are kept. -/
theorem test_bufClr : after .bufClr { withBuf [0x11, 0x22, 0x33] 2 with crc := 0x807E, err := 0x80 }
    (fun s => (s.buf, s.rptr, s.crc, s.err)) = some ([], 0, 0x807E, 0x80) := by decide

theorem test_bufRew : after .bufRew (withBuf [0x11, 0x22] 2) (fun s => (s.buf, s.rptr)) = some ([0x11, 0x22], 0) := by
  decide

/-- Spec 95 V-BUS-8, the first byte of each illegal row. -/
theorem test_illegal : ∀ op ∈ ([0x05, 0x06, 0x08, 0x12, 0x14, 0x18, 0x22, 0x24, 0x28, 0x34, 0x38, 0x40, 0x80] : List Byte),
    after (decode ⟨true, 0x0, op⟩) { withBuf [0xAA] with err := 0x40 } (fun s => (s.err, s.buf)) =
      some (0xC0, [0xAA]) := by decide

/-! ### Register accesses -/

/-- Spec 95 V-BUS-1, V-BUS-2, V-BUS-11, and the boundary of KEYRDY. -/
theorem test_rdStatus : after .rdStatus State.reset State.rdata = some (some 0x34) ∧
    after .rdStatus { State.reset with err := 0x40 } State.rdata = some (some 0x35) ∧
    after .rdStatus (withBuf [0x01] 1) State.rdata = some (some 0x20) ∧
    after .rdStatus { State.reset with keyLen := 17 } State.rdata = some (some 0x34) := by decide

/-- Spec 95 V-BUS-10: a full buffer, unread. -/
theorem test_rdStatus_full : statusView (withBuf (List.replicate 272 0x5A)) = 0x18 := by decide +kernel

theorem test_rdErr : after .rdErr { State.reset with err := 0x05 } (fun s => (s.rdata, s.err)) =
    some (some 0x05, 0x05) := by decide

/-- Spec 95 V-BUS-7. -/
theorem test_wrErr : after (.wrErr 0x3F) { State.reset with err := 0xC0 } State.err = some 0xC0 ∧
    after (.wrErr 0x04) { State.reset with err := 0x05 } State.err = some 0x01 := by decide

theorem test_rdCrc : after .rdCrcLo { State.reset with crc := 0xDE4E } State.rdata = some (some 0x4E) ∧
    after .rdCrcHi { State.reset with crc := 0xDE4E } State.rdata = some (some 0xDE) := by decide

/-- Spec 40 R101, R102: `blen = 257`. -/
theorem test_rdBlen : after .rdBlenLo (withBuf (zeros 257)) State.rdata = some (some 0x01) ∧
    after .rdBlenHi (withBuf (zeros 257)) State.rdata = some (some 0x01) := by decide +kernel

/-- Spec 40 R104: `rptr = 260`. -/
theorem test_rdRptr : after .rdRptrLo (withBuf (zeros 272) 260) State.rdata = some (some 0x04) ∧
    after .rdRptrHi (withBuf (zeros 272) 260) State.rdata = some (some 0x01) := by decide

theorem test_rdKeyLen : after .rdKeyLen { State.reset with keyLen := 17 } State.rdata = some (some 0x11) := by decide

/-- Spec 40 R100: three reads of a two-byte buffer, the second and the third. -/
theorem test_rdBufData : after .rdBufData (withBuf [0xAA, 0xBB] 1) (fun s => (s.rdata, s.rptr, s.err)) =
      some (some 0xBB, 2, 0x00) ∧
    after .rdBufData (withBuf [0xAA, 0xBB] 2) (fun s => (s.rdata, s.rptr, s.err)) = some (some 0x00, 2, 0x40) := by
  decide

/-- Spec 40 R99: append, `rptr` kept; and the full buffer of spec 95 V-BUS-10. -/
theorem test_wrBufData : after (.wrBufData 0xBB) (withBuf [0xAA] 1) (fun s => (s.buf, s.rptr)) =
      some ([0xAA, 0xBB], 1) ∧
    after (.wrBufData 0x77) (withBuf (zeros 272)) (fun s => (s.buf.length, s.err)) = some (272, 0x20) := by decide +kernel

/-- Spec 95 V-BUS-3. -/
theorem test_empty_reads : ∀ i ∈ [Instr.rdCmd, .rdCrcDin, .rdKeyData, .rdRsvdD, .rdRsvdE, .rdRsvdF],
    nextOf (exec i { State.reset with key := kt, keyLen := 16 }) =
      some { State.reset with key := kt, keyLen := 16, rdata := some 0x00 } := by decide

/-- Spec 95 V-BUS-4. -/
theorem test_ignored_writes : ∀ i ∈ [Instr.wrStatus 0xFF, .wrCrcLo 0x00, .wrCrcHi 0x00, .wrBlenLo 0x07, .wrBlenHi 0x01,
      .wrRptrLo 0x01, .wrRptrHi 0x01, .wrKeyLen 0x10, .wrRsvdD 0xFF, .wrRsvdE 0xFF, .wrRsvdF 0xFF],
    nextOf (exec i { withBuf [0xAA] with crc := 0x6161 }) = some { withBuf [0xAA] with crc := 0x6161 } := by decide

/-! ### The cipher unit -/

theorem test_wrKeyData : after (.wrKeyData 0x5A) { State.reset with keyLen := 15 } (fun s => (s.key[15], s.keyLen)) =
      some (0x5A, 16) ∧
    after (.wrKeyData 0x5A) { State.reset with key := kt, keyLen := 16 } (fun s => (s.key, s.keyLen)) =
      some (kt, 17) := by decide

theorem test_keyClr : after .keyClr { State.reset with key := kt, keyLen := 17, err := 0x08 }
    (fun s => (s.key[15], s.keyLen, s.err)) = some (0x00, 0, 0x08) := by decide

/-- Spec 95 V-ECB-E1 and V-ECB-E4. -/
theorem test_ecbEnc_errors : nextOf (exec .ecbEnc (withBuf goodFrame 2)) =
      some { withBuf goodFrame 2 with err := 0x18 } ∧
    after .ecbEnc { withBuf (zeros 17) with keyLen := 16 } State.err = some 0x10 := by decide

/-- Spec 95 V-ECB-E2 and V-ECB-E5. -/
theorem test_ecbDec_errors : after .ecbDec { withBuf (zeros 16) with keyLen := 15 } State.err = some 0x08 ∧
    after .ecbDec { State.reset with keyLen := 16 } (fun s => (s.buf, s.err)) = some ([], 0x00) := by decide

/-- Spec 95 V-ECB-X1, under the test cipher XOR. -/
theorem test_ecbCommand_xor : ecbCommand xorCipher { withBuf (goodFrame ++ zeros 10) 5 with key := kt, keyLen := 16 } =
    { withBuf [0xFE, 0x05, 0xA8, 0xB8, 0x4A, 0xDB, 0x06, 0x07, 0x08, 0x09, 0x0A, 0x0B, 0x0C, 0x0D, 0x0E, 0x0F] with
      key := kt, keyLen := 16 } := by decide

/-- Spec 95 V-ECB-X3: two equal blocks. -/
theorem test_ecbBlocks_two : ecbBlocks (xorCipher kt) 2 (List.replicate 32 0x11) =
    [0x11, 0x10, 0x13, 0x12, 0x15, 0x14, 0x17, 0x16, 0x19, 0x18, 0x1B, 0x1A, 0x1D, 0x1C, 0x1F, 0x1E,
     0x11, 0x10, 0x13, 0x12, 0x15, 0x14, 0x17, 0x16, 0x19, 0x18, 0x1B, 0x1A, 0x1D, 0x1C, 0x1F, 0x1E] := by decide

/-- Both cipher commands reach the open cipher: `E` for one, `D` for the other, with the key first. -/
theorem test_ecb_uses_cipher (b : Block) : after .ecbEnc { withBuf b.toList with key := kt, keyLen := 16 } State.buf =
      some ((Config.E kt b).toList ++ []) ∧
    after .ecbDec { withBuf b.toList with key := kt, keyLen := 16 } State.buf = some ((Config.D kt b).toList ++ []) := by
  have hb : blockOf b.toList = b := by simpa using blockOf_toList_append b []
  simp [after, nextOf, exec, execEcbEnc, execEcbDec, accept, ecbCommand, keyBad, blockBad, withBuf, State.rewriteBuf,
    Config.keyBytes, Config.blockBytes, ecbBlocks, hb, State.reset]

/-! ### The framer -/

/-- Spec 95 V-FRM-E2 (stale `crc` and `rptr`) and V-FRM-E1. -/
theorem test_frmEnc : nextOf (exec .frmEnc { withBuf [0xAA, 0xBB] 2 with crc := 0x807E }) =
      some { withBuf goodFrame with crc := 0xDE4E } ∧
    after .frmEnc State.reset State.buf = some [0xFE, 0x02, 0xC0, 0x11] := by decide +kernel

/-- Spec 95 V-FRM-E5: 254 bytes. -/
theorem test_frmEnc_overflow : after .frmEnc (withBuf (zeros 254)) (fun s => (s.buf.length, s.crc, s.err)) =
    some (254, 0xFFFF, 0x20) := by decide +kernel

/-- Spec 95 V-FRM-D1 and V-FRM-D7 (the bytes the source prints, 90 C1). -/
theorem test_frmDec : nextOf (exec .frmDec (withBuf goodFrame 4)) = some { withBuf [0xAA, 0xBB] with crc := 0xDE4E } ∧
    nextOf (exec .frmDec (withBuf [0xFE, 0x05, 0xAA, 0xBB, 0xBC, 0xB7] 1)) =
      some { withBuf [0xFE, 0x05, 0xAA, 0xBB, 0xBC, 0xB7] 1 with crc := 0x1E1F, err := 0x06 } := by decide +kernel

/-- Spec 95 V-FRM-D9, D12, D14, D15: `LEN` alone by the residue law, under 4 bytes, all three, `HDR` alone. -/
theorem test_frmDec_flags : after .frmDec (withBuf (goodFrame ++ [0x00])) (fun s => (s.crc, s.err)) =
      some (0x00DE, 0x02) ∧
    after .frmDec (withBuf [0xFE, 0x01, 0x00]) (fun s => (s.crc, s.err)) = some (0xFFFF, 0x02) ∧
    after .frmDec (withBuf (zeros 4)) (fun s => (s.crc, s.err)) = some (0xB001, 0x07) ∧
    after .frmDec (withBuf [0xFD, 0x02, 0xC0, 0xE1]) (fun s => (s.crc, s.err)) = some (0xE1C0, 0x01) := by decide +kernel

/-- Spec 43 R165, on the flags of spec 95 V-FRM-D6, D9, D15. -/
theorem test_firstError : firstError 0x06 = some .checksumMismatch ∧ firstError 0x02 = some .lengthMismatch ∧
    firstError 0x01 = some .headerMismatch ∧ firstError 0x00 = none := by decide

/-- Spec 95 V-FRM-P3 and V-FRM-P10. -/
theorem test_frmPad : after .frmPad (withBuf goodFrame 1) (fun s => (s.buf, s.rptr)) =
      some (goodFrame ++ [0, 0, 0, 0, 0, 0, 0, 0, 0, 0], 0) ∧
    after .frmPad (withBuf (zeros 271)) State.blen = some 272 := by decide +kernel

/-- Spec 95 V-FRM-T3 (the pad is not examined) and V-FRM-T9. -/
theorem test_frmTrim : after .frmTrim (withBuf (goodFrame ++ [0x99, 0x88, 0x77]) 3) (fun s => (s.buf, s.rptr)) =
      some (goodFrame, 0) ∧
    after .frmTrim (withBuf [0xFE, 0x00, 0xAA, 0xBB]) State.buf = some [0xFE, 0x00] := by decide

/-- Spec 95 V-FRM-T5 and V-FRM-T7: 17 bytes declared, 16 present. -/
theorem test_frmTrim_errors : after .frmTrim (withBuf [0xFE]) (fun s => (s.buf, s.err)) = some ([0xFE], 0x02) ∧
    after .frmTrim (withBuf ([0xFE, 0x0F] ++ zeros 14)) (fun s => (s.blen, s.err)) = some (16, 0x02) := by decide

/-! ### The step and host scripts -/

/-- The host's word for a row runs as the first instruction after reset. -/
theorem test_step_runs_word : (nextOf (step (State.reset.withFetchWord 16 0x16AA))).map State.buf = some [0xAA] ∧
    nextOf (step (State.reset.withFetchWord 16 0x0100)) = some { State.reset with rdata := some 0x34 } := by decide

/-- Reset between two transactions keeps what the host presents next (spec 70 R223). -/
theorem test_step_hardReset : nextOf (step { withBuf [0xAA] with pending := [.hardReset, .transaction ⟨false, 0x1, 0⟩] }) =
    some { State.reset with pending := [.transaction ⟨false, 0x1, 0⟩] } := by decide

/-- Lines of spec 30 R79, R80, with a comment, a literal address and an expectation. -/
theorem test_parseLine : parseLine "WR ERR, 0x40 ; clear UNF" = some (.wr 0x2 0x40) ∧
    parseLine "RD 0xD = 0" = some (.rd 0xD (some 0x00)) ∧ parseLine "FRM.ENC" = some (.command 0x30) ∧
    parseLine "DRAIN 2 = AA BB" = some (.drain 2 (some [0xAA, 0xBB])) ∧
    parseLine "RD16 CRC = 0x1E8F" = some (.rd16Crc (some 0x1E8F)) ∧ parseLine "wr ERR, 0x40" = none := by decide

/-- Program P1 of spec 95, its second half: with the bytes in the buffer. -/
theorem test_harness_P1 : (assemble ["BUF.CLR", "LOAD 01 02 03", "CRC.INIT", "CRC.BUF", "RD16 CRC = 0x6161",
    "RD ERR = 0x00"]).map (fun l => harness l State.reset) = some true := by decide +kernel

/-! ### Witnesses: each statement's hypotheses are met, clause by clause -/

theorem witness_TransactionWordLayout : (0x2000#16).getLsbD 13 = true ∧ (0x4000#16).getLsbD 14 = true ∧
    (0x8000#16).getLsbD 15 = true ∧ (encode .rdErr).we = false := by decide

theorem witness_CommandTableDecodes : (0x05 : Byte) ∉ opcodes ∧ (0x34 : Byte) ∉ opcodes ∧ (0xFF : Byte) ∉ opcodes := by
  decide

theorem witness_DecodeOfEncode : (Instr.ill0607 0x07).wf = true ∧ (Instr.wrErr 0xFF).wf = true := by decide

theorem witness_EncodeOfDecode : decodeWord 0x12FF = .ok (.wrErr 0xFF) ∧ (0x12FF#16).getLsbD 12 = true ∧
    decodeWord 0x06FF = .ok .rdBufData ∧ (0x06FF#16).getLsbD 12 = false := by decide

theorem witness_TableRowsPartitionWords : (0x1FFF#16).extractLsb' 13 3 = 0#3 ∧ (0x2000#16).extractLsb' 13 3 ≠ 0#3 ∧
    Instr.row (.wrRsvdF 0) ≠ Instr.row .rdCmd := by decide

theorem witness_StepRunsDecodedInstruction :
    ({ State.reset with pending := [.transaction ⟨true, 0x0, 0x30⟩] } : State).pending =
      .transaction ⟨true, 0x0, 0x30⟩ :: [] ∧ decodeWord 0x1030 = .ok .frmEnc := by decide

theorem witness_HardResetAndIdleBus : State.reset.pending = [] ∧
    ({ withBuf [0xAA] with pending := [.hardReset] } : State).pending = .hardReset :: [] := ⟨rfl, rfl⟩

/-- The invariants are met at the capacity, with everything read and too long a key. -/
theorem witness_invariant_boundary : ({ withBuf (zeros 272) 272 with keyLen := 17 } : State).Inv := by decide +kernel

theorem witness_StepKeepsInvariant : ∃ s s' : State, s.Inv ∧ s.pending ≠ [] ∧ step s = .next s' :=
  ⟨{ withBuf [0xAA] 1 with pending := [.transaction ⟨false, 0x6, 0⟩] }, _, by decide, by decide, rfl⟩

theorem witness_ReachableStatesMeetInvariant : ∃ s : State, s.Reachable ∧ s.buf = [0xAA] :=
  ⟨_, ⟨[.transaction ⟨true, 0x6, 0xAA⟩], 1, rfl⟩, rfl⟩

theorem witness_StepsPlayTransactionsInOrder : ∃ (ts : List Transaction) (t : State) (out : List Byte),
    play ts { State.reset with pending := [.hardReset] } = some (t, out) ∧ out = [0x34, 0xFF] :=
  ⟨[⟨false, 0x1, 0⟩, ⟨false, 0x4, 0⟩], _, _, rfl, rfl⟩

theorem witness_EveryTransactionCompletes : (⟨true, 0x0, 0x30⟩ : Transaction).we = true ∧
    (⟨false, 0xF, 0x00⟩ : Transaction).we = false := ⟨rfl, rfl⟩

theorem witness_KeyLengthRead : ({ State.reset with keyLen := 17 } : State).keyLen ≤ 17 := by decide

theorem witness_BufferWriteAppends : (withBuf (zeros 272)).buf.length = 272 ∧ (withBuf (zeros 271)).buf.length ≠ 272 := by
  decide +kernel

theorem witness_BufferReadAdvances : (withBuf [0xAA] 1).rptr = (withBuf [0xAA] 1).buf.length ∧
    (withBuf [0xAA] 0).rptr < (withBuf [0xAA] 0).buf.length := by decide

theorem witness_ErrReadAndWriteOneToClear : 7 < 8 := by decide

theorem witness_IllegalCommandsSetIll : (0x34 : Byte) ∉ opcodes ∧ (0x80 : Byte) ∉ opcodes := by decide

theorem witness_CrcResidue : (0xDE4E : Word16) = checksum [0xFE, 0x04, 0xAA, 0xBB] := by decide +kernel

theorem witness_CrcDetectsSingleBit : 1 < ([0xFE, 0x04] : List Byte).length ∧ 7 < 8 := by decide

theorem witness_KeyBytesAndKeyClear : ({ State.reset with keyLen := 15 } : State).keyLen < 16 ∧
    16 ≤ ({ State.reset with keyLen := 16 } : State).keyLen := by decide

theorem witness_KeySequenceLoads : State.reset.keyLen = 0 := rfl

/-- The last state whose key is short, one whose buffer is no whole number of blocks, and one that meets both. -/
theorem witness_EcbEncipher : ({ State.reset with keyLen := 15 } : State).keyLen ≠ 16 ∧
    (withBuf (zeros 17)).buf.length % 16 ≠ 0 ∧ ({ withBuf (zeros 32) with keyLen := 16 } : State).keyLen = 16 ∧
    (withBuf (zeros 32)).buf.length % 16 = 0 ∧ 16 * 1 < (withBuf (zeros 32)).buf.length := by decide

theorem witness_EcbDecipher : ({ State.reset with keyLen := 17 } : State).keyLen ≠ 16 ∧
    (withBuf (zeros 15)).buf.length % 16 ≠ 0 ∧ ({ withBuf (zeros 272) with keyLen := 16 } : State).keyLen = 16 ∧
    (withBuf (zeros 272)).buf.length % 16 = 0 ∧ 16 * 16 < (withBuf (zeros 272)).buf.length := by decide +kernel

theorem witness_EcbRoundTrip : ({ withBuf (zeros 272) with keyLen := 16 } : State).keyLen = 16 ∧
    (withBuf (zeros 272)).buf.length % 16 = 0 := by decide +kernel

theorem witness_EqualBlocksEncipherEqually : ∃ s t : State, s.keyLen = 16 ∧ s.buf.length % 16 = 0 ∧
    16 * 0 < s.buf.length ∧ 16 * 1 < s.buf.length ∧
    (s.buf.drop (16 * 0)).take 16 = (s.buf.drop (16 * 1)).take 16 ∧ exec .ecbEnc s = .next t :=
  ⟨{ withBuf (zeros 32) with keyLen := 16 }, _, rfl, rfl, by decide, by decide, by decide, rfl⟩

theorem witness_FrameEncode : 253 < (withBuf (zeros 254)).buf.length ∧ (withBuf (zeros 253)).buf.length ≤ 253 := by
  decide +kernel

theorem witness_FrameLayout : ∃ s t : State, s.buf.length ≤ 253 ∧ s.buf = [0xAA, 0xBB] ∧ exec .frmEnc s = .next t :=
  ⟨withBuf [0xAA, 0xBB], _, by decide, rfl, rfl⟩

theorem witness_FrameDecode : (withBuf (zeros 3)).buf.length < 4 ∧ 4 ≤ (withBuf (zeros 4)).buf.length := by decide

/-- Both sides of the equivalence are met by states. -/
theorem witness_DecodeAcceptsExactlyFrames : ∃ s t r v : State, s.err = 0x00 ∧ exec .frmDec s = .next t ∧ t.err = 0x00 ∧
    r.err = 0x00 ∧ exec .frmDec r = .next v ∧ v.err ≠ 0x00 :=
  ⟨withBuf goodFrame, _, withBuf (zeros 4), _, rfl, rfl, by decide +kernel, rfl, rfl, by decide +kernel⟩

theorem witness_FramePad : (withBuf (zeros 272)).buf.length ≤ 272 := by decide +kernel

theorem witness_FrameTrim : (withBuf [0xFE]).buf.length < 2 ∧
    ((withBuf [0xFE, 0x01]).buf[1]? = some 0x01 ∧ (withBuf [0xFE, 0x01]).buf.length < (0x01 : Byte).toNat + 2) ∧
    ((withBuf [0xFE, 0x00]).buf[1]? = some 0x00 ∧ (0x00 : Byte).toNat + 2 ≤ (withBuf [0xFE, 0x00]).buf.length) := by
  decide

theorem witness_FrameRoundTrip : (withBuf (zeros 253)).buf.length ≤ 253 := by decide +kernel

theorem witness_LinkDeliversBody : (zeros 253).length ≤ 253 ∧
    ({ State.reset with key := kt, keyLen := 16 } : State).keyLen = 16 := by decide +kernel

theorem witness_SingleBitFlipRejected : ∃ s t : State, 0 < t.buf.length ∧ 1 < t.buf.length ∧ 5 < t.buf.length ∧ 7 < 8 ∧
    s.buf.length ≤ 253 ∧ exec .frmEnc s = .next t :=
  ⟨withBuf [0xAA, 0xBB], _, by decide, by decide, by decide, by decide, by decide, rfl⟩

theorem witness_CrcWriters : ∃ s t : State, exec .frmDec s = .next t ∧ t.crc ≠ s.crc :=
  ⟨withBuf (zeros 4), _, rfl, by decide +kernel⟩

theorem witness_LengthWriters : ∃ s t : State, exec .frmTrim s = .next t ∧ t.blen ≠ s.blen :=
  ⟨withBuf [0xFE, 0x00, 0xAA, 0xBB], _, rfl, by decide⟩

theorem witness_BufferBytesKept : ∃ s t u : State, exec (.wrBufData 0xBB) s = .next t ∧ 0 < s.buf.length ∧
    0 < t.buf.length ∧ exec .crcBuf s = .next u :=
  ⟨withBuf [0x01, 0x00], _, _, rfl, by decide, by decide, rfl⟩

theorem witness_ReadPointerWriters : ∃ s t : State, exec .bufRew s = .next t ∧ t.rptr ≠ s.rptr :=
  ⟨withBuf [0xAA] 1, _, rfl, by decide⟩

theorem witness_KeyWriters : ∃ s t : State, exec .ecbEnc s = .next t ∧ Instr.ecbEnc ≠ .srst ∧ Instr.ecbEnc ≠ .keyClr ∧
    ∀ v, Instr.ecbEnc ≠ .wrKeyData v :=
  ⟨State.reset, _, rfl, by decide, by decide, by simp⟩

theorem witness_FlagsAfterTransaction : ∃ s t : State, (Instr.ill80FF 0x80).wf = true ∧
    exec (.ill80FF 0x80) s = .next t ∧ t.err.getLsbD (Flag.bit .ill) = true :=
  ⟨State.reset, _, by decide, rfl, by decide⟩

/-- Every cause of spec 60 R191 is met by some state, so no clause of `Raises` is empty. -/
theorem witness_FailingTransactionChangesOnlyErr : Raises .frmDec (withBuf (zeros 4)) .hdr ∧
    Raises .frmDec (withBuf (zeros 3)) .len ∧ Raises .frmTrim (withBuf [0xFE]) .len ∧
    Raises .frmDec (withBuf (zeros 4)) .csum ∧ Raises .ecbEnc State.reset .keylen ∧
    Raises .ecbDec (withBuf (zeros 15)) .blklen ∧ Raises (.wrBufData 0x00) (withBuf (zeros 272)) .ovf ∧
    Raises .frmEnc (withBuf (zeros 254)) .ovf ∧ Raises .rdBufData State.reset .unf ∧ Raises .ill0505 State.reset .ill :=
  ⟨⟨rfl, by decide +kernel, by decide +kernel⟩, .inl ⟨rfl, .inl (by decide +kernel)⟩, .inr ⟨rfl, .inl (by decide +kernel)⟩,
    ⟨rfl, by decide +kernel, by decide +kernel⟩, ⟨.inl rfl, by decide +kernel⟩, ⟨.inr rfl, by decide +kernel⟩, .inl ⟨⟨_, rfl⟩, by decide +kernel⟩,
    .inr ⟨rfl, by decide +kernel⟩, ⟨rfl, rfl⟩, ⟨0x05, by decide +kernel, by decide +kernel⟩⟩

theorem witness_SetFlagsChangeNothingElse : ∃ s t : State, exec .frmDec s = .next t ∧ Instr.frmDec ≠ .rdErr ∧
    Instr.frmDec ≠ .rdStatus :=
  ⟨withBuf goodFrame, _, rfl, by decide, by decide⟩

theorem witness_KeyNotReadBackWithoutCipherCommand : ∃ t : State, ∃ out : List Byte,
    (∀ x ∈ ([⟨true, 0xB, 0x5A⟩, ⟨false, 0xB, 0⟩, ⟨false, 0xC, 0⟩] : List Transaction),
      decode x ≠ .ecbEnc ∧ decode x ≠ .ecbDec) ∧
    play [⟨true, 0xB, 0x5A⟩, ⟨false, 0xB, 0⟩, ⟨false, 0xC, 0⟩] State.reset = some (t, out) ∧ out = [0x00, 0x01] :=
  ⟨_, _, by decide, rfl, rfl⟩

theorem witness_IdempotentTransactions : Instr.rdKeyLen.isRead = true ∧ Instr.rdKeyLen ≠ .rdBufData := by decide

end Sys2Proof.Tests
end

/-! ## Family 10: the state. What a transaction does and returns, and what it can change

`exec` is split once into the state a transaction leaves (`effect`) and the byte it returns (`returned`); `Changes`
lists what a transaction can change. The statements about the elements of the state are read off these. -/

namespace Sys2Proof.Machine

/-! ### The transaction as an effect and a byte on the bus -/

/-- The state a transaction leaves, but for the byte on the bus: the arms of `exec` without their two endings. -/
def effect (i : Instr) (s : State) : State :=
  match i with
  | .srst => s.resetAll
  | .bufClr => s.rewriteBuf []
  | .bufRew => s.rewind
  | .keyClr => s.clearKey
  | .crcInit => s.setCrc Config.crcInit
  | .crcBuf => s.setCrc (crcBytes s.crc (slice s.buf 0 s.blen))
  | .ecbEnc => ecbCommand Config.E s
  | .ecbDec => ecbCommand Config.D s
  | .frmEnc => frameEncode s
  | .frmDec => frameDecode s
  | .frmPad => s.rewriteBuf (s.buf ++ zeros (padLen s.blen))
  | .frmTrim => frameTrim s
  | .ill0505 | .ill0607 _ | .ill080F _ | .ill1213 _ | .ill1417 _ | .ill181F _ | .ill2223 _ | .ill2427 _ | .ill282F _
  | .ill3437 _ | .ill383F _ | .ill407F _ | .ill80FF _ => s.raise .ill
  | .wrErr data => s.clearFlags data
  | .wrCrcDin data => s.setCrc (crcStep s.crc data)
  | .wrBufData data => if bufFull s then s.raise .ovf else s.append data
  | .wrKeyData data => s.putKeyByte data
  | .rdBufData => if readEnd s then s.raise .unf else s.advance
  | _ => s

/-- The byte a transaction returns, none for a write (spec 40 R90). -/
def returned (i : Instr) (s : State) : Option Byte :=
  match i with
  | .rdStatus => some (statusView s)
  | .rdErr => some s.err
  | .rdCrcLo => some (loByte s.crc)
  | .rdCrcHi => some (hiByte s.crc)
  | .rdBufData => some (if readEnd s then 0x00 else byteAt s.buf s.rptr)
  | .rdBlenLo => some (natLo s.blen)
  | .rdBlenHi => some (natBit8 s.blen)
  | .rdRptrLo => some (natLo s.rptr)
  | .rdRptrHi => some (natBit8 s.rptr)
  | .rdKeyLen => some (keyLenView s)
  | .rdCmd | .rdCrcDin | .rdKeyData | .rdRsvdD | .rdRsvdE | .rdRsvdF => some 0x00
  | _ => none

/-- `exec` is its effect and the byte it returns: no instruction stops. Only a read of `BUF_DATA` chooses its ending by
a test, so every other arm agrees by definition. -/
theorem exec_eq (i : Instr) (s : State) : exec i s = .next { effect i s with rdata := returned i s } := by
  cases i
  case rdBufData =>
    by_cases h : readEnd s = true <;> simp [exec, execRdBufData, effect, returned, answer, h]
  all_goals rfl

theorem exec_eq_next (i : Instr) (s t : State) :
    exec i s = .next t ↔ t = { effect i s with rdata := returned i s } := by
  simp [exec_eq, eq_comm]

/-! ### What a transaction can change -/

/-- `Changes s i u`: issued in `s`, the instruction `i` can leave `u`. A transaction that has no effect, fails, is
illegal or clears flags is `onlyErr`; each other way stands with the test that must have passed. -/
inductive Changes (s : State) : Instr → State → Prop
  | onlyErr {i} (e : Byte) : Changes s i { s with err := e }
  | srst : Changes s .srst s.resetAll
  | bufClr : Changes s .bufClr (s.rewriteBuf [])
  | bufRew : Changes s .bufRew s.rewind
  | keyClr : Changes s .keyClr s.clearKey
  | wrKeyData (v : Byte) : Changes s (.wrKeyData v) (s.putKeyByte v)
  | crcInit : Changes s .crcInit (s.setCrc Config.crcInit)
  | crcBuf : Changes s .crcBuf (s.setCrc (crcBytes s.crc (slice s.buf 0 s.blen)))
  | wrCrcDin (v : Byte) : Changes s (.wrCrcDin v) (s.setCrc (crcStep s.crc v))
  | wrBufData (v : Byte) (room : s.buf.length ≠ 272) : Changes s (.wrBufData v) (s.append v)
  | rdBufData (unread : s.rptr ≠ s.buf.length) : Changes s .rdBufData s.advance
  | ecb {i} (cipher : i = .ecbEnc ∨ i = .ecbDec) (bytes : List Byte) (len : bytes.length = s.buf.length) :
      Changes s i (s.rewriteBuf bytes)
  | frmEnc (fits : s.buf.length ≤ 253) :
      Changes s .frmEnc ((s.rewriteBuf (frameOf s.buf)).setCrc (checksum (framePrefix s.buf)))
  | frmDecRejected (whole : 4 ≤ s.buf.length) (e : Byte) : Changes s .frmDec { s with crc := frameSum s.buf, err := e }
  | frmDecAccepted (whole : 4 ≤ s.buf.length) :
      Changes s .frmDec ((s.setCrc (frameSum s.buf)).rewriteBuf (bodyOf s.buf))
  | frmPad : Changes s .frmPad (s.rewriteBuf (s.buf ++ zeros (padLen s.blen)))
  | frmTrim (fits : declaredSize s.buf ≤ s.buf.length) :
      Changes s .frmTrim (s.rewriteBuf (s.buf.take (declaredSize s.buf)))

theorem ecbCommand_changes (f : Key → Block → Block) {i : Instr} (s : State) (cipher : i = .ecbEnc ∨ i = .ecbDec) :
    Changes s i (ecbCommand f s) := by
  rcases ecbCommand_cases f s with ⟨-, heq⟩ | ⟨-, -, heq⟩ <;> rw [heq]
  · exact .onlyErr _
  · exact .ecb cipher _ (ecbBlocks_length _ _ _ (Nat.mul_div_le _ _))

theorem frameEncode_changes (s : State) : Changes s .frmEnc (frameEncode s) := by
  rcases frameEncode_cases s with ⟨-, heq⟩ | ⟨fits, heq⟩ <;> rw [heq]
  · exact .onlyErr _
  · exact .frmEnc fits

theorem frameDecode_changes (s : State) : Changes s .frmDec (frameDecode s) := by
  rcases frameDecode_cases s with ⟨-, heq⟩ | ⟨whole, -, heq⟩ | ⟨whole, -, -, -, heq⟩ <;> rw [heq]
  · exact .onlyErr _
  · exact .frmDecRejected whole _
  · exact .frmDecAccepted whole

theorem frameTrim_changes (s : State) : Changes s .frmTrim (frameTrim s) := by
  rcases frameTrim_cases s with ⟨-, heq⟩ | ⟨-, fits, heq⟩ <;> rw [heq]
  · exact .onlyErr _
  · exact .frmTrim fits

theorem effect_wrBufData_changes (v : Byte) (s : State) : Changes s (.wrBufData v) (effect (.wrBufData v) s) := by
  by_cases full : s.buf.length = 272
  · rw [show effect (.wrBufData v) s = s.raise .ovf by simp [effect, bufFull, full]]
    exact .onlyErr _
  · rw [show effect (.wrBufData v) s = s.append v by simp [effect, bufFull, full]]
    exact .wrBufData v full

theorem effect_rdBufData_changes (s : State) : Changes s .rdBufData (effect .rdBufData s) := by
  by_cases done : s.rptr = s.buf.length
  · rw [show effect .rdBufData s = s.raise .unf by simp [effect, readEnd, done]]
    exact .onlyErr _
  · rw [show effect .rdBufData s = s.advance by simp [effect, readEnd, done]]
    exact .rdBufData done

/-- What each instruction can change. The instructions not named here change nothing but `err`. -/
theorem effect_changes (i : Instr) (s : State) : Changes s i (effect i s) := by
  cases i
  case srst => exact .srst
  case bufClr => exact .bufClr
  case bufRew => exact .bufRew
  case keyClr => exact .keyClr
  case wrKeyData v => exact .wrKeyData v
  case crcInit => exact .crcInit
  case crcBuf => exact .crcBuf
  case wrCrcDin v => exact .wrCrcDin v
  case wrBufData v => exact effect_wrBufData_changes v s
  case rdBufData => exact effect_rdBufData_changes s
  case ecbEnc => exact ecbCommand_changes Config.E s (.inl rfl)
  case ecbDec => exact ecbCommand_changes Config.D s (.inr rfl)
  case frmEnc => exact frameEncode_changes s
  case frmDec => exact frameDecode_changes s
  case frmPad => exact .frmPad
  case frmTrim => exact frameTrim_changes s
  all_goals exact .onlyErr _

/-- The inversion of `exec`: the next state is one that `Changes` allows, with some byte or none on the bus. -/
theorem exec_changes {i : Instr} {s t : State} (h : exec i s = .next t) :
    ∃ (u : State) (b : Option Byte), Changes s i u ∧ t = { u with rdata := b } :=
  ⟨_, _, effect_changes i s, (exec_eq_next i s t).mp h⟩

/-! ### The invariants of spec 10 R32 -/

/-- A pad never passes the capacity, which is a whole number of blocks (spec 43 R166). -/
theorem add_padLen_le_bufCap {n : Nat} (h : n ≤ 272) : n + padLen n ≤ 272 := by
  have := add_padLen_mod n
  have := padLen_lt n
  omega

theorem Changes.inv {s u : State} {i : Instr} (h : Changes s i u) (hs : s.Inv) : u.Inv := by
  have cap : s.buf.length ≤ 272 := hs.2.1
  cases h with
  | onlyErr | crcInit | crcBuf | wrCrcDin | frmDecRejected => exact hs
  | srst => exact State.resetAll_inv s
  | bufRew => exact hs.rewind
  | keyClr => exact hs.clearKey
  | wrKeyData v => exact hs.putKeyByte v
  | wrBufData v room => exact hs.append v (by omega)
  | rdBufData unread => exact hs.advance unread
  | bufClr => exact hs.rewriteBuf _ (by simp)
  | ecb _ bytes len => exact hs.rewriteBuf _ (by omega)
  | frmEnc fits => exact hs.rewriteBuf _ (by simp; omega)
  | frmDecAccepted => exact hs.rewriteBuf _ (by simp [bodyOf]; omega)
  | frmPad => exact hs.rewriteBuf _ (by simpa using add_padLen_le_bufCap cap)
  | frmTrim => exact hs.rewriteBuf _ (by simp; omega)

theorem exec_inv {i : Instr} {s t : State} (hs : s.Inv) (h : exec i s = .next t) : t.Inv := by
  obtain ⟨u, b, hu, rfl⟩ := exec_changes h
  exact hu.inv hs

theorem step_inv {s t : State} (hs : s.Inv) (h : step s = .next t) : t.Inv := by
  rcases step_cases s with ⟨-, heq⟩ | ⟨rest, -, heq⟩ | ⟨x, rest, -, heq⟩ <;> rw [heq] at h
  · cases h; exact hs
  · cases h; exact State.resetAll_inv { s with pending := rest }
  · exact exec_inv (s := { s with pending := rest }) hs h

/-- A property that every step of a machine keeps holds at the end of every run from a state that has it. -/
theorem run_preserves {M : Host.Core} {P : M.State → Prop} (keep : ∀ s t, P s → M.step s = .next t → P t) (n : Nat)
    {s t : M.State} (hs : P s) (h : M.run n s = .next t) : P t := by
  induction n generalizing s with
  | zero => cases h; exact hs
  | succ n ih =>
    rw [Host.Core.run] at h
    split at h
    next u hu => exact ih (keep s u hs hu) h
    all_goals cases h

/-- Settles O11: reset is the state that `SRST` leaves. -/
theorem resetMeetsInvariant : Obligations.ResetMeetsInvariant := State.resetAll_inv State.reset

/-- Settles O12, by the inversion of the step and of `exec`. -/
theorem stepKeepsInvariant : Obligations.StepKeepsInvariant := fun _ _ hs h => step_inv hs h

/-- Settles O13, from O11 and O12 by induction on the run. -/
theorem reachableStatesMeetInvariant : Obligations.ReachableStatesMeetInvariant := by
  rintro s ⟨inputs, n, h⟩
  have start : State.Inv { State.reset with pending := inputs } := resetMeetsInvariant
  exact run_preserves (M := Sys2Proof.core) stepKeepsInvariant n start h

/-- Settles O8: the elements by definition, and each first read by evaluating its view of the reset state. -/
theorem resetStateAndFirstReads : Obligations.ResetStateAndFirstReads := by
  exact ⟨rfl, rfl, rfl, rfl, by decide, rfl, rfl, rfl, rfl, rfl, rfl⟩

/-! ### Which transactions change which element (spec 10 R21 to R27) -/

/-- Settles O50, by the inversion of `exec`: each change either keeps `crc` or is of a named transaction. -/
theorem crcWriters : Obligations.CrcWriters := by
  intro i s t h hne
  obtain ⟨u, b, hu, rfl⟩ := exec_changes h
  cases hu with
  | onlyErr | bufClr | bufRew | keyClr | wrBufData | rdBufData | ecb | frmPad | frmTrim => exact absurd rfl hne
  | wrKeyData v => exact absurd (s.putKeyByte_crc v) hne
  | srst | crcInit | crcBuf | wrCrcDin => simp
  | frmEnc fits => simp [fits]
  | frmDecRejected whole | frmDecAccepted whole => simp [whole]

/-- Settles O51, by the inversion of `exec` and the lengths of what the framer writes. -/
theorem lengthWriters : Obligations.LengthWriters := by
  intro i s t h hne
  obtain ⟨u, b, hu, rfl⟩ := exec_changes h
  cases hu with
  | onlyErr | bufRew | keyClr | crcInit | crcBuf | wrCrcDin | rdBufData | frmDecRejected => exact absurd rfl hne
  | wrKeyData v => exact absurd (congrArg List.length (s.putKeyByte_buf v)) hne
  | ecb _ _ len => exact absurd len hne
  | srst | bufClr | wrBufData | frmEnc => simp
  | frmDecAccepted whole => simp [bodyOf]; omega
  | frmPad =>
    have := add_padLen_mod s.buf.length
    have := padLen_lt s.buf.length
    simp at hne ⊢; omega
  | frmTrim fits =>
    have := fits
    simp [declaredSize] at hne this ⊢; omega

/-- Settles O52, by the inversion of `exec`: the changes that are not excluded extend the buffer or cut it short. -/
theorem bufferBytesKept : Obligations.BufferBytesKept := by
  intro i s t h
  obtain ⟨u, b, hu, rfl⟩ := exec_changes h
  cases hu with
  | onlyErr | bufRew | keyClr | crcInit | crcBuf | wrCrcDin | rdBufData => exact ⟨fun _ _ _ _ => rfl, fun _ _ => rfl⟩
  | wrKeyData v => simp
  | srst | bufClr | frmEnc | frmDecRejected | frmDecAccepted => simp
  | ecb cipher => rcases cipher with rfl | rfl <;> simp
  | wrBufData v => exact ⟨fun _ k hk _ => List.getElem?_append_left hk, fun _ hv => absurd rfl (hv v)⟩
  | frmPad => exact ⟨fun _ k hk _ => List.getElem?_append_left hk, by simp⟩
  | frmTrim =>
    refine ⟨fun _ k hk hk' => List.getElem?_take_of_lt ?_, by simp⟩
    simp at hk'; omega

/-- Settles O53, by the inversion of `exec`: a rewrite of the buffer rewinds, only a read of `BUF_DATA` advances. -/
theorem readPointerWriters : Obligations.ReadPointerWriters := by
  intro i s t h hne
  obtain ⟨u, b, hu, rfl⟩ := exec_changes h
  cases hu with
  | onlyErr | keyClr | crcInit | crcBuf | wrCrcDin | wrBufData | frmDecRejected => exact absurd rfl hne
  | wrKeyData v => exact absurd (s.putKeyByte_rptr v) hne
  | rdBufData => exact .inl ⟨rfl, rfl⟩
  | ecb cipher => rcases cipher with rfl | rfl <;> simp
  | srst | bufClr | bufRew | frmEnc | frmDecAccepted | frmPad | frmTrim => simp

/-- Settles O54, by the inversion of `exec`: no other change touches the key. -/
theorem keyWriters : Obligations.KeyWriters := by
  intro i s t h hsrst hclr hdata
  obtain ⟨u, b, hu, rfl⟩ := exec_changes h
  cases hu with
  | srst => exact absurd rfl hsrst
  | keyClr => exact absurd rfl hclr
  | wrKeyData v => exact absurd rfl (hdata v)
  | _ => exact ⟨rfl, rfl⟩

/-! ### A set flag changes nothing else (spec 10 R28) -/

/-- A conditional flag is an update of `err` alone. -/
theorem State.raiseIf_eq (s : State) (test : Bool) (f : Flag) :
    s.raiseIf test f = { s with err := s.err ||| if test then f.mask else 0x00 } := by
  cases test <;> simp [State.raise]

theorem ecbCommand_withErr (f : Key → Block → Block) (s : State) (e : Byte) :
    ∃ e', ecbCommand f { s with err := e } = { ecbCommand f s with err := e' } := by
  simp only [ecbCommand, State.raiseIf_eq, keyBad, blockBad, State.blen]
  split <;> exact ⟨_, rfl⟩

theorem frameEncode_withErr (s : State) (e : Byte) :
    ∃ e', frameEncode { s with err := e } = { frameEncode s with err := e' } := by
  simp only [frameEncode]
  split <;> exact ⟨_, rfl⟩

theorem frameDecode_withErr (s : State) (e : Byte) :
    ∃ e', frameDecode { s with err := e } = { frameDecode s with err := e' } := by
  simp only [frameDecode, raiseFrameFlags, State.raiseIf_eq]
  split
  · exact ⟨_, rfl⟩
  · split <;> exact ⟨_, rfl⟩

theorem frameTrim_withErr (s : State) (e : Byte) :
    ∃ e', frameTrim { s with err := e } = { frameTrim s with err := e' } := by
  simp only [frameTrim]
  split <;> exact ⟨_, rfl⟩

theorem putKeyByte_withErr (v : Byte) (s : State) (e : Byte) :
    State.putKeyByte v { s with err := e } = { s.putKeyByte v with err := e } := by
  simp only [State.putKeyByte]
  split <;> rfl

/-- `err` bears on no element but itself. -/
theorem effect_withErr (i : Instr) (s : State) (e : Byte) :
    ∃ e', effect i { s with err := e } = { effect i s with err := e' } := by
  cases i
  case ecbEnc => exact ecbCommand_withErr Config.E s e
  case ecbDec => exact ecbCommand_withErr Config.D s e
  case frmEnc => exact frameEncode_withErr s e
  case frmDec => exact frameDecode_withErr s e
  case frmTrim => exact frameTrim_withErr s e
  case wrKeyData v => exact ⟨e, putKeyByte_withErr v s e⟩
  case wrBufData =>
    simp only [effect, show bufFull { s with err := e } = bufFull s from rfl]
    split <;> exact ⟨_, rfl⟩
  case rdBufData =>
    simp only [effect, show readEnd { s with err := e } = readEnd s from rfl]
    split <;> exact ⟨_, rfl⟩
  all_goals exact ⟨_, rfl⟩

/-- Only a read of `ERR` or `STATUS` returns anything of `err`. -/
theorem returned_withErr (i : Instr) (s : State) (e : Byte) (herr : i ≠ .rdErr) (hstatus : i ≠ .rdStatus) :
    returned i { s with err := e } = returned i s := by
  cases i
  case rdErr => exact absurd rfl herr
  case rdStatus => exact absurd rfl hstatus
  all_goals rfl

/-- Settles O57: neither the effect nor, but for the two named reads, the returned byte depends on `err`. -/
theorem setFlagsChangeNothingElse : Obligations.SetFlagsChangeNothingElse := by
  intro i s t e h
  obtain rfl := (exec_eq_next i s t).mp h
  obtain ⟨e', he⟩ := effect_withErr i s e
  refine ⟨e', returned i { s with err := e }, ?_, returned_withErr i s e⟩
  rw [exec_eq, he]

/-! ### The key is not read back (spec 10 R26, 40 R105, R108) -/

theorem frameEncode_withKey (s : State) (k : Key) :
    frameEncode { s with key := k } = { frameEncode s with key := k } := by
  simp only [frameEncode]
  split <;> rfl

theorem frameDecode_withKey (s : State) (k : Key) :
    frameDecode { s with key := k } = { frameDecode s with key := k } := by
  simp only [frameDecode, raiseFrameFlags, State.raiseIf_eq]
  split
  · rfl
  · split <;> rfl

theorem frameTrim_withKey (s : State) (k : Key) : frameTrim { s with key := k } = { frameTrim s with key := k } := by
  simp only [frameTrim]
  split <;> rfl

theorem putKeyByte_withKey (v : Byte) (s : State) (k : Key) :
    ∃ k', State.putKeyByte v { s with key := k } = { s.putKeyByte v with key := k' } := by
  simp only [State.putKeyByte]
  split <;> exact ⟨_, rfl⟩

/-- Without a cipher command, the key's bytes bear on no element but the key. -/
theorem effect_withKey (i : Instr) (s : State) (k : Key) (henc : i ≠ .ecbEnc) (hdec : i ≠ .ecbDec) :
    ∃ k', effect i { s with key := k } = { effect i s with key := k' } := by
  cases i
  case ecbEnc => exact absurd rfl henc
  case ecbDec => exact absurd rfl hdec
  case frmEnc => exact ⟨k, frameEncode_withKey s k⟩
  case frmDec => exact ⟨k, frameDecode_withKey s k⟩
  case frmTrim => exact ⟨k, frameTrim_withKey s k⟩
  case wrKeyData v => exact putKeyByte_withKey v s k
  case wrBufData =>
    simp only [effect, show bufFull { s with key := k } = bufFull s from rfl]
    split <;> exact ⟨_, rfl⟩
  case rdBufData =>
    simp only [effect, show readEnd { s with key := k } = readEnd s from rfl]
    split <;> exact ⟨_, rfl⟩
  all_goals exact ⟨_, rfl⟩

/-- No transaction returns anything of the key's bytes. -/
theorem returned_withKey (i : Instr) (s : State) (k : Key) : returned i { s with key := k } = returned i s := by
  cases i <;> rfl

/-- A program is its first transaction, then the rest from the state that leaves. -/
theorem play_cons (x : Transaction) (rest : List Transaction) (s : State) :
    play (x :: rest) s = (play rest { effect (decode x) s with rdata := returned (decode x) s }).map
      fun r => (r.1, (returned (decode x) s).toList ++ r.2) := by
  simp only [play, exec_eq]

/-- Settles O58, by induction on the program: after each transaction the two blocks differ in the key's bytes alone. -/
theorem keyNotReadBackWithoutCipherCommand : Obligations.KeyNotReadBackWithoutCipherCommand := by
  intro ts
  induction ts with
  | nil =>
    intro s t out k _ h
    simp only [play, Option.some.injEq, Prod.mk.injEq] at h
    obtain ⟨rfl, rfl⟩ := h
    exact ⟨k, rfl⟩
  | cons x rest ih =>
    intro s t out k hx h
    obtain ⟨⟨henc, hdec⟩, hrest⟩ := List.forall_mem_cons.mp hx
    obtain ⟨k₁, hk₁⟩ := effect_withKey (decode x) s k henc hdec
    rw [play_cons, Option.map_eq_some_iff] at h
    obtain ⟨⟨t', out'⟩, hplay, hout⟩ := h
    simp only [Prod.mk.injEq] at hout
    obtain ⟨rfl, rfl⟩ := hout
    obtain ⟨k', hk'⟩ := ih _ _ _ k₁ hrest hplay
    exact ⟨k', by rw [play_cons, hk₁, returned_withKey, hk']; rfl⟩

end Sys2Proof.Machine

/-! ## Family 20: memory. Transactions are performed whole, one after the other, in the host's order

A transaction neither reads nor changes what the host has still to present, so stepping through a pending program is
playing it. -/

namespace Sys2Proof.Machine

/-! ### The step takes and runs the oldest transaction (spec 20 R53, 40 R90) -/

theorem step_of_transaction {s : State} {x : Transaction} {rest : List BusInput}
    (h : s.pending = .transaction x :: rest) : step s = exec (decode x) { s with pending := rest } := by
  simp [step, takeInput, h]

theorem step_present (x : Transaction) (s : State) : step (s.present x) = exec (decode x) s :=
  step_of_transaction rfl

/-- A word the decoder of listings reads is a transaction of the table, and decodes as that transaction does. -/
theorem tableTransaction_of_decodeWord {w : Word16} {i : Instr} (h : decodeWord w = .ok i) :
    ∃ x, tableTransaction 16 w.toNat = some x ∧ decode x = i := by
  have hw : w.toNat < 2 ^ 16 := w.isLt
  have hmod : w.toNat % 2 ^ 16 = w.toNat := Nat.mod_eq_of_lt hw
  cases hx : Transaction.ofWord w with
  | error e => simp [decodeWord, hx, Except.map] at h
  | ok x =>
    refine ⟨x, ?_, by simpa [decodeWord, hx, Except.map] using h⟩
    rw [tableTransaction, hmod, if_pos hw, BitVec.ofNat_toNat, BitVec.setWidth_eq, hx]
    rfl

theorem step_withFetchWord {w : Word16} {i : Instr} (s : State) (h : decodeWord w = .ok i) :
    step (s.withFetchWord 16 w.toNat) = exec i s := by
  obtain ⟨x, hx, rfl⟩ := tableTransaction_of_decodeWord h
  rw [State.withFetchWord, State.presentWord, hx]
  exact step_present x s

/-- Settles O7: the step's own equation, and for a listing word the transaction it is presented as. -/
theorem stepRunsDecodedInstruction : Obligations.StepRunsDecodedInstruction :=
  ⟨fun _ _ _ h => step_of_transaction h, fun s _ _ h => step_withFetchWord s h⟩

/-! ### What the host has still to present bears on no transaction -/

theorem ecbCommand_withPending (f : Key → Block → Block) (s : State) (p : List BusInput) :
    ecbCommand f { s with pending := p } = { ecbCommand f s with pending := p } := by
  simp only [ecbCommand, State.raiseIf_eq, keyBad, blockBad, State.blen]
  split <;> rfl

theorem frameEncode_withPending (s : State) (p : List BusInput) :
    frameEncode { s with pending := p } = { frameEncode s with pending := p } := by
  simp only [frameEncode]
  split <;> rfl

theorem frameDecode_withPending (s : State) (p : List BusInput) :
    frameDecode { s with pending := p } = { frameDecode s with pending := p } := by
  simp only [frameDecode, raiseFrameFlags, State.raiseIf_eq]
  split
  · rfl
  · split <;> rfl

theorem frameTrim_withPending (s : State) (p : List BusInput) :
    frameTrim { s with pending := p } = { frameTrim s with pending := p } := by
  simp only [frameTrim]
  split <;> rfl

theorem putKeyByte_withPending (v : Byte) (s : State) (p : List BusInput) :
    State.putKeyByte v { s with pending := p } = { s.putKeyByte v with pending := p } := by
  simp only [State.putKeyByte]
  split <;> rfl

theorem effect_withPending (i : Instr) (s : State) (p : List BusInput) :
    effect i { s with pending := p } = { effect i s with pending := p } := by
  cases i
  case ecbEnc => exact ecbCommand_withPending Config.E s p
  case ecbDec => exact ecbCommand_withPending Config.D s p
  case frmEnc => exact frameEncode_withPending s p
  case frmDec => exact frameDecode_withPending s p
  case frmTrim => exact frameTrim_withPending s p
  case wrKeyData v => exact putKeyByte_withPending v s p
  case wrBufData =>
    simp only [effect, show bufFull { s with pending := p } = bufFull s from rfl]
    split <;> rfl
  case rdBufData =>
    simp only [effect, show readEnd { s with pending := p } = readEnd s from rfl]
    split <;> rfl
  all_goals rfl

theorem returned_withPending (i : Instr) (s : State) (p : List BusInput) :
    returned i { s with pending := p } = returned i s := by
  cases i <;> rfl

theorem exec_withPending (i : Instr) (s : State) (p : List BusInput) :
    exec i { s with pending := p } = .next { effect i s with rdata := returned i s, pending := p } := by
  rw [exec_eq, effect_withPending, returned_withPending]

/-! ### A program has one execution (spec 20 R61) -/

/-- A step with a transaction the oldest input has its effect, returns its byte and keeps the inputs after it. -/
theorem step_cons (x : Transaction) (rest : List BusInput) (s : State) :
    step { s with pending := .transaction x :: rest } =
      .next { effect (decode x) s with rdata := returned (decode x) s, pending := rest } :=
  (step_of_transaction rfl).trans (exec_withPending (decode x) s rest)

theorem run_succ_of_step {M : Host.Core} {s t : M.State} (h : M.step s = .next t) (n : Nat) :
    M.run (n + 1) s = M.run n t := by
  rw [Host.Core.run, h]

/-- A run through a presented program, the rest of the pending list kept, ends where playing the program does. -/
theorem run_of_play (xs : List Transaction) (rest : List BusInput) {s t : State} {out : List Byte}
    (h : play xs { s with pending := rest } = some (t, out)) :
    Sys2Proof.core.run xs.length { s with pending := xs.map .transaction ++ rest } = .next t := by
  induction xs generalizing s out with
  | nil =>
    obtain ⟨rfl, -⟩ := Prod.mk.inj (Option.some.inj h)
    rfl
  | cons x xs ih =>
    rw [play_cons, effect_withPending, returned_withPending, Option.map_eq_some_iff] at h
    obtain ⟨⟨t', bytes⟩, hplay, hout⟩ := h
    obtain ⟨rfl, -⟩ := Prod.mk.inj hout
    calc Sys2Proof.core.run (x :: xs).length { s with pending := (x :: xs).map .transaction ++ rest }
      _ = Sys2Proof.core.run xs.length { effect (decode x) s with
            rdata := returned (decode x) s, pending := xs.map .transaction ++ rest } :=
          run_succ_of_step (step_cons x (xs.map .transaction ++ rest) s) xs.length
      _ = .next t' := ih (s := { effect (decode x) s with rdata := returned (decode x) s }) hplay

theorem play_append (xs ys : List Transaction) (s : State) :
    play (xs ++ ys) s = (play xs s).bind fun r => (play ys r.1).map fun q => (q.1, r.2 ++ q.2) := by
  induction xs generalizing s with
  | nil => simp [play]
  | cons x xs ih =>
    rw [List.cons_append, play_cons, play_cons, ih]
    simp [Option.map_bind, Option.bind_map, Function.comp_def]

/-- Settles O15, by induction on the program. -/
theorem stepsPlayTransactionsInOrder : Obligations.StepsPlayTransactionsInOrder :=
  ⟨fun xs rest _ _ _ h => run_of_play xs rest h, play_append⟩

/-! ### Idempotent transactions and reads (spec 20 R60) -/

/-- A write that finds nothing to do in the state it left is idempotent. -/
theorem exec_twice {i : Instr} {s : State} (write : ∀ t, returned i t = none)
    (fixed : effect i { effect i s with rdata := none } = { effect i s with rdata := none }) :
    ∃ t, exec i s = .next t ∧ exec i t = .next t :=
  ⟨{ effect i s with rdata := none }, by rw [exec_eq, write], by rw [exec_eq, write, fixed]⟩

/-- Flags cleared once are clear: the same mask clears nothing more (spec 40 R95). -/
theorem wrErr_fixed (m : Byte) (s : State) :
    effect (.wrErr m) { effect (.wrErr m) s with rdata := none } = { effect (.wrErr m) s with rdata := none } := by
  simp [effect, State.clearFlags, BitVec.and_assoc]

/-- A padded buffer is a whole number of blocks, so a second pad is empty (spec 43 R166). -/
theorem frmPad_fixed (s : State) :
    effect .frmPad { effect .frmPad s with rdata := none } = { effect .frmPad s with rdata := none } := by
  have hpad : padLen (s.buf.length + padLen s.buf.length) = 0 := padLen_of_mod _ (add_padLen_mod s.buf.length)
  simp [effect, State.rewriteBuf, hpad, zeros]

/-- Trimming keeps the length byte, so a trimmed buffer declares the size it has (spec 43 R167). -/
theorem declaredSize_take (bytes : List Byte) : declaredSize (bytes.take (declaredSize bytes)) = declaredSize bytes := by
  simp [declaredSize, byteAt]

/-- A rejected trim is rejected again and its flag is sticky; a trimmed buffer is cut where it ends (spec 43 R167). -/
theorem frmTrim_fixed (s : State) :
    effect .frmTrim { effect .frmTrim s with rdata := none } = { effect .frmTrim s with rdata := none } := by
  simp only [effect]
  rcases frameTrim_cases s with ⟨bad, heq⟩ | ⟨two, fits, heq⟩ <;> rw [heq]
  · rcases frameTrim_cases { s.raise .len with rdata := none } with ⟨-, again⟩ | ⟨two, fits, -⟩
    · rw [again]
      simp [State.raise, BitVec.or_assoc]
    · exact absurd bad (not_or.mpr ⟨Nat.not_lt.mpr two, Nat.not_lt.mpr fits⟩)
  · have size := declaredSize_take s.buf
    have len : (s.buf.take (declaredSize s.buf)).length = declaredSize s.buf := List.length_take_of_le fits
    rcases frameTrim_cases { s with buf := s.buf.take (declaredSize s.buf), rptr := 0, rdata := none } with
      ⟨bad, -⟩ | ⟨-, -, again⟩
    · have : 2 ≤ declaredSize s.buf := Nat.le_add_left 2 _
      simp only [size, len] at bad
      omega
    · rw [again, size]
      simp

/-- A read of any register but `BUF_DATA` has no effect: only the byte on the bus changes (spec 20 R60). -/
theorem exec_of_isRead (i : Instr) (s : State) (read : i.isRead = true) (hne : i ≠ .rdBufData) :
    ∃ b, exec i s = .next { s with rdata := some b } := by
  cases i
  case rdBufData => exact absurd rfl hne
  case rdCmd | rdStatus | rdErr | rdCrcLo | rdCrcHi | rdCrcDin | rdBlenLo | rdBlenHi | rdRptrLo | rdRptrHi | rdKeyData
      | rdKeyLen | rdRsvdD | rdRsvdE | rdRsvdF => exact ⟨_, rfl⟩
  all_goals exact absurd read Bool.false_ne_true

/-- Settles O59: the commands that set elements to constants leave nothing to do by definition, the others by their own
lemmas. -/
theorem idempotentTransactions : Obligations.IdempotentTransactions := by
  refine ⟨fun m s => ?_, exec_of_isRead⟩
  simp only [List.forall_mem_cons]
  exact ⟨exec_twice (fun _ => rfl) rfl, exec_twice (fun _ => rfl) rfl, exec_twice (fun _ => rfl) rfl,
    exec_twice (fun _ => rfl) rfl, exec_twice (fun _ => rfl) rfl, exec_twice (fun _ => rfl) rfl,
    exec_twice (fun _ => rfl) (frmPad_fixed s), exec_twice (fun _ => rfl) (frmTrim_fixed s),
    exec_twice (fun _ => rfl) (wrErr_fixed m s), List.forall_mem_nil _⟩

end Sys2Proof.Machine

/-! ## Family 30: encoding. Words, transactions and instructions stand for each other

A word with zero high bits and its transaction determine each other (`ofWord_toWord`, `toWord_fields`), so
decoding a word is decoding a transaction (`decodeWord_eq_ok`). -/

namespace Sys2Proof

/-! ### The transaction word: its fields are its digits (spec 30 R70) -/

theorem toWord_toNat (x : Transaction) :
    x.toWord.toNat = 4096 * x.we.toNat + 256 * x.addr.toNat + x.wdata.toNat := by
  have concat : x.toWord.toNat = (0#3 ++ BitVec.ofBool x.we ++ x.addr ++ x.wdata).toNat := rfl
  rw [concat, BitVec.toNat_append, BitVec.toNat_append, BitVec.toNat_append,
    ← Nat.shiftLeft_add_eq_or_of_lt x.wdata.isLt, ← Nat.shiftLeft_add_eq_or_of_lt x.addr.isLt]
  simp [Nat.shiftLeft_eq]
  omega

theorem toNat_eq_fields (w : Word16) :
    w.toNat = 8192 * (zeroField w).toNat + 4096 * (weField w).toNat + 256 * (addrField w).toNat +
      (dataField w).toNat := by
  have := w.isLt
  simp only [zeroField, weField, addrField, dataField, BitVec.extractLsb'_toNat, Nat.shiftRight_eq_div_pow,
    BitVec.getLsbD, Nat.toNat_testBit]
  omega

/-- A word with zero high bits is the word of the transaction that its fields make. -/
theorem toWord_fields {w : Word16} (h : zeroField w = 0) :
    Transaction.toWord ⟨weField w, addrField w, dataField w⟩ = w := by
  apply BitVec.eq_of_toNat_eq
  rw [toWord_toNat, toNat_eq_fields w, h]
  simp

/-- The fields of a transaction's word are the transaction's: a number has its digits in one way only. -/
theorem toWord_has_fields (x : Transaction) :
    zeroField x.toWord = 0 ∧ weField x.toWord = x.we ∧ addrField x.toWord = x.addr ∧ dataField x.toWord = x.wdata := by
  have digits := (toWord_toNat x).symm.trans (toNat_eq_fields x.toWord)
  have := x.we.toNat_lt
  have := x.addr.isLt
  have := x.wdata.isLt
  have := (weField x.toWord).toNat_lt
  have := (addrField x.toWord).isLt
  have := (dataField x.toWord).isLt
  refine ⟨BitVec.eq_of_toNat_eq (by simp; omega), Bool.eq_iff_iff.mpr ?_, BitVec.eq_of_toNat_eq (by omega),
    BitVec.eq_of_toNat_eq (by omega)⟩
  rw [← Bool.toNat_eq_one, ← Bool.toNat_eq_one]
  omega

theorem ofWord_toWord (x : Transaction) : Transaction.ofWord x.toWord = .ok x := by
  obtain ⟨hzero, hwe, haddr, hdata⟩ := toWord_has_fields x
  rw [Transaction.ofWord, if_pos hzero, hwe, haddr, hdata]

theorem toWord_getLsbD_12 (x : Transaction) : x.toWord.getLsbD 12 = x.we := by
  obtain ⟨-, hwe, -, -⟩ := toWord_has_fields x
  exact hwe

/-! ### Decoding a word is decoding its transaction -/

theorem decodeWord_toWord (x : Transaction) : decodeWord x.toWord = .ok (decode x) := by
  rw [decodeWord, ofWord_toWord]
  rfl

theorem decodeWord_of_zeroField_ne {w : Word16} (h : zeroField w ≠ 0) :
    decodeWord w = .error (.zeroBitsSet (zeroField w)) := by
  rw [decodeWord, Transaction.ofWord, if_neg h]
  rfl

theorem decodeWord_eq_ok {w : Word16} {i : Instr} : decodeWord w = .ok i ↔ ∃ x, x.toWord = w ∧ decode x = i := by
  constructor
  · intro h
    by_cases hzero : zeroField w = 0
    · rw [← toWord_fields hzero, decodeWord_toWord] at h
      exact ⟨_, toWord_fields hzero, Except.ok.inj h⟩
    · rw [decodeWord_of_zeroField_ne hzero] at h
      cases h
  · rintro ⟨x, rfl, rfl⟩
    exact decodeWord_toWord x

/-- The zero field is not zero when one of its three bits is set. -/
theorem zeroField_ne {w : Word16} (h : w.getLsbD 13 = true ∨ w.getLsbD 14 = true ∨ w.getLsbD 15 = true) :
    zeroField w ≠ 0 := by
  intro hzero
  have bit (k : Nat) (hk : k < 3) : w.getLsbD (13 + k) = false := by
    simpa [zeroField, hk] using congrArg (BitVec.getLsbD · k) hzero
  rcases h with h | h | h
  · exact Bool.false_ne_true ((bit 0 (by decide)).symm.trans h)
  · exact Bool.false_ne_true ((bit 1 (by decide)).symm.trans h)
  · exact Bool.false_ne_true ((bit 2 (by decide)).symm.trans h)

/-- The data byte of a write is the low byte of its word. -/
theorem toWord_writeTxn (a : BitVec 4) (v : Byte) :
    (writeTxn a v).toWord = (writeTxn a 0x00).toWord ||| v.setWidth 16 := by
  have halves := BitVec.or_append (x₁ := 0#3 ++ BitVec.ofBool true ++ a) (x₂ := 0#(3 + 1 + 4)) (y₁ := 0#8) (y₂ := v)
  rw [BitVec.or_zero, BitVec.zero_or] at halves
  rw [BitVec.setWidth_eq_append (by decide : 8 ≤ 16)]
  exact halves.symm

/-- Masking the ignored data field of a read gives the word of the read as a listing writes it. -/
theorem toWord_readTxn (a : BitVec 4) (v : Byte) :
    (readTxn a).toWord = Transaction.toWord ⟨false, a, v⟩ &&& 0xFF00 := by
  have halves := BitVec.and_append (x₁ := 0#3 ++ BitVec.ofBool false ++ a) (x₂ := BitVec.allOnes (3 + 1 + 4)) (y₁ := v)
    (y₂ := 0#8)
  rw [BitVec.and_allOnes, BitVec.and_zero] at halves
  exact halves.symm

/-! ### Decoding what was encoded -/

/-- The rows of several illegal opcodes are checked byte by byte, since the decoder tests masks and `wf` a range. -/
theorem decode_encode {i : Instr} (wf : i.wf = true) : decode (encode i) = i := by
  cases i
  case ill0607 op | ill080F op | ill1213 op | ill1417 op | ill181F op | ill2223 op | ill2427 op | ill282F op | ill3437 op
      | ill383F op | ill407F op | ill80FF op =>
    revert op; decide
  all_goals rfl

/-- Settles O4: only a row of several illegal opcodes needs its well-formedness, which keeps the opcode byte in the row;
every other instruction is read back by definition. -/
theorem decodeOfEncode : Obligations.DecodeOfEncode := by
  intro i wf
  have agree : decode (encode i) = i := decode_encode wf
  exact ⟨agree, decodeWord_eq_ok.mpr ⟨encode i, rfl, agree⟩⟩

/-- An encoded instruction is a write, or a read whose data field is 0x00. -/
theorem encode_write_or_read (i : Instr) : (encode i).we = true ∨ ∃ a, encode i = readTxn a := by
  cases i
  case rdCmd | rdStatus | rdErr | rdCrcLo | rdCrcHi | rdCrcDin | rdBufData | rdBlenLo | rdBlenHi | rdRptrLo | rdRptrHi
      | rdKeyData | rdKeyLen | rdRsvdD | rdRsvdE | rdRsvdF => exact .inr ⟨_, rfl⟩
  all_goals exact .inl rfl

/-- Settles O1, clause by clause, from the lemmas about the word and its fields. -/
theorem transactionWordLayout : Obligations.TransactionWordLayout := by
  refine ⟨fun x => ⟨?_, ofWord_toWord x⟩, fun w h => decodeWord_of_zeroField_ne (zeroField_ne h), fun _ _ => rfl,
    fun i read => ?_⟩
  · rw [toWord_toNat]
    cases x.we <;> simp
  · rcases encode_write_or_read i with write | ⟨a, h⟩
    · exact absurd (write.symm.trans read) Bool.noConfusion
    · rw [h]
      rfl

/-! ### Encoding what was decoded -/

/-- What each of the 256 command bytes decodes to is well-formed and encodes as that byte. -/
theorem decodeCommand_spec (op : Byte) : (decodeCommand op).wf = true ∧ encode (decodeCommand op) = commandTxn op := by
  revert op; decide

theorem decodeWrite_spec (a : BitVec 4) (v : Byte) :
    (decodeWrite a v).wf = true ∧ encode (decodeWrite a v) = writeTxn a v := by
  obtain ⟨⟨n, hn⟩⟩ := a
  interval_cases n
  · exact decodeCommand_spec v
  all_goals exact ⟨rfl, rfl⟩

theorem decodeRead_spec (a : BitVec 4) : (decodeRead a).wf = true ∧ encode (decodeRead a) = readTxn a := by
  revert a; decide

theorem decode_wf (x : Transaction) : (decode x).wf = true := by
  obtain ⟨_ | _, a, v⟩ := x
  · exact (decodeRead_spec a).1
  · exact (decodeWrite_spec a v).1

theorem encodeWord_decode_read (a : BitVec 4) (v : Byte) :
    encodeWord (decode ⟨false, a, v⟩) = Transaction.toWord ⟨false, a, v⟩ &&& 0xFF00 :=
  (congrArg Transaction.toWord (decodeRead_spec a).2).trans (toWord_readTxn a v)

theorem encodeWord_decode_write (a : BitVec 4) (v : Byte) :
    encodeWord (decode ⟨true, a, v⟩) = Transaction.toWord ⟨true, a, v⟩ :=
  congrArg Transaction.toWord (decodeWrite_spec a v).2

/-- Settles O5: the word is a transaction's, and bit 12 says whether that is a read or a write. -/
theorem encodeOfDecode : Obligations.EncodeOfDecode := by
  intro w i h
  obtain ⟨x, rfl, rfl⟩ := decodeWord_eq_ok.mp h
  rw [toWord_getLsbD_12]
  obtain ⟨we, a, v⟩ := x
  refine ⟨decode_wf _, ?_, ?_⟩
  · rintro rfl
    exact encodeWord_decode_write a v
  · rintro rfl
    exact encodeWord_decode_read a v

/-! ### The rows of the opcode table

Two rows share no word, since some bit that both masks fix has a value of its own in each. -/

theorem TableRow.covers_iff (r : TableRow) (w : Word16) : r.covers w = true ↔ w &&& r.mask = r.value := by
  simp [TableRow.covers]

/-- The 57 rows, each from one instruction of the row. -/
def tableRows : List TableRow :=
  ([.nop, .srst, .bufClr, .bufRew, .keyClr, .crcInit, .crcBuf, .ecbEnc, .ecbDec, .frmEnc, .frmDec, .frmPad, .frmTrim,
    .ill0505, .ill0607 0x06, .ill080F 0x08, .ill1213 0x12, .ill1417 0x14, .ill181F 0x18, .ill2223 0x22, .ill2427 0x24,
    .ill282F 0x28, .ill3437 0x34, .ill383F 0x38, .ill407F 0x40, .ill80FF 0x80, .wrStatus 0, .wrErr 0, .wrCrcLo 0,
    .wrCrcHi 0, .wrCrcDin 0, .wrBufData 0, .wrBlenLo 0, .wrBlenHi 0, .wrRptrLo 0, .wrRptrHi 0, .wrKeyData 0,
    .wrKeyLen 0, .wrRsvdD 0, .wrRsvdE 0, .wrRsvdF 0, .rdCmd, .rdStatus, .rdErr, .rdCrcLo, .rdCrcHi, .rdCrcDin,
    .rdBufData, .rdBlenLo, .rdBlenHi, .rdRptrLo, .rdRptrHi, .rdKeyData, .rdKeyLen, .rdRsvdD, .rdRsvdE,
    .rdRsvdF] : List Instr).map Instr.row

theorem row_mem_tableRows (i : Instr) : i.row ∈ tableRows := by
  cases i <;> exact List.mem_of_elem_eq_true rfl

/-- The rows differ at a bit that both masks fix. -/
abbrev TableRow.Apart (r q : TableRow) : Prop := (r.value ^^^ q.value) &&& (r.mask &&& q.mask) ≠ 0

theorem tableRows_apart : ∀ r ∈ tableRows, ∀ q ∈ tableRows, r = q ∨ r.Apart q := by decide +kernel

theorem tableRows_fix_zeroField :
    ∀ r ∈ tableRows, r.mask.extractLsb' 13 3 = BitVec.allOnes 3 ∧ r.value.extractLsb' 13 3 = 0 := by decide

/-- A word's bits under two masks agree where both masks fix them. -/
theorem and_masks_agree (w m n : Word16) : ((w &&& m) ^^^ (w &&& n)) &&& (m &&& n) = 0 := by
  ext k hk
  simp only [BitVec.getElem_and, BitVec.getElem_xor, BitVec.ofNat_eq_ofNat, BitVec.getElem_zero]
  cases w[k] <;> cases m[k] <;> cases n[k] <;> rfl

theorem TableRow.not_apart {r q : TableRow} {w : Word16} (hr : r.covers w = true) (hq : q.covers w = true) :
    ¬ r.Apart q := by
  rw [TableRow.covers_iff] at hr hq
  rw [TableRow.Apart, ← hr, ← hq, not_not]
  exact and_masks_agree w r.mask q.mask

theorem row_unique {i j : Instr} {w : Word16} (hi : i.row.covers w = true) (hj : j.row.covers w = true) :
    j.row = i.row :=
  (tableRows_apart _ (row_mem_tableRows j) _ (row_mem_tableRows i)).resolve_right (TableRow.not_apart hj hi)

theorem zeroField_of_covers {i : Instr} {w : Word16} (h : i.row.covers w = true) : zeroField w = 0 := by
  obtain ⟨mask, value⟩ := tableRows_fix_zeroField _ (row_mem_tableRows i)
  have high := congrArg (BitVec.extractLsb' 13 3) ((i.row.covers_iff w).mp h)
  rwa [BitVec.extractLsb'_and, mask, value, BitVec.and_allOnes] at high

open Laws.EncodesRow in
/-- The model's lemmas of the family `EncodesRow`, for all instructions. -/
theorem row_covers_encodeWord (i : Instr) : Laws.EncodesRow.Statement i := by
  cases i
  exacts [nop, srst, bufClr, bufRew, keyClr, crcInit, crcBuf, ecbEnc, ecbDec, frmEnc, frmDec, frmPad, frmTrim, ill0505,
    ill0607 _, ill080F _, ill1213 _, ill1417 _, ill181F _, ill2223 _, ill2427 _, ill282F _, ill3437 _, ill383F _,
    ill407F _, ill80FF _, wrStatus _, wrErr _, wrCrcLo _, wrCrcHi _, wrCrcDin _, wrBufData _, wrBlenLo _, wrBlenHi _,
    wrRptrLo _, wrRptrHi _, wrKeyData _, wrKeyLen _, wrRsvdD _, wrRsvdE _, wrRsvdF _, rdCmd, rdStatus, rdErr, rdCrcLo,
    rdCrcHi, rdCrcDin, rdBufData, rdBlenLo, rdBlenHi, rdRptrLo, rdRptrHi, rdKeyData, rdKeyLen, rdRsvdD, rdRsvdE, rdRsvdF]

theorem decodeRead_mask (a : BitVec 4) : (decodeRead a).row.mask = 0xFF00 := by
  revert a; decide

/-- The row of the instruction a transaction decodes to has the transaction's word: that word encodes the instruction,
but for the data field of a read, which the row's mask leaves free. -/
theorem row_decode_covers (x : Transaction) : (decode x).row.covers x.toWord = true := by
  have covers := row_covers_encodeWord (decode x) (decode_wf x)
  obtain ⟨_ | _, a, v⟩ := x
  · have mask : (decode ⟨false, a, v⟩).row.mask = 0xFF00 := decodeRead_mask a
    rw [TableRow.covers_iff, mask, encodeWord_decode_read, BitVec.and_assoc, BitVec.and_self] at covers
    rwa [TableRow.covers_iff, mask]
  · rwa [encodeWord_decode_write] at covers

/-- Settles O6: the decoded instruction's row has the word, no two rows share one, and every row fixes bits 15:13 at
zero. -/
theorem tableRowsPartitionWords : Obligations.TableRowsPartitionWords := by
  refine fun w => ⟨fun hzero => ?_, fun hne j => Bool.eq_false_iff.mpr fun hj => hne (zeroField_of_covers hj)⟩
  have covers := row_decode_covers ⟨weField w, addrField w, dataField w⟩
  rw [toWord_fields hzero] at covers
  exact ⟨_, decodeWord_eq_ok.mpr ⟨_, toWord_fields hzero, rfl⟩, covers, fun j hj => row_unique covers hj⟩

end Sys2Proof

namespace Sys2Proof.Machine

/-! ### The checksum through the port (spec 30 R75, 41 R125) -/

theorem checksumScript_eq (bytes : List Byte) :
    checksumScript bytes = commandTxn 0x10 :: (bytes.map (writeTxn 0x5) ++ [readTxn 0x3, readTxn 0x4]) := by
  simp [checksumScript, transactionsOf, ScriptLine.expand, writesOf, readOf, Function.comp_def]

theorem play_writes_crcDin (bytes : List Byte) {s : State} (quiet : s.rdata = none) :
    play (bytes.map (writeTxn 0x5)) s = some ({ s with crc := crcBytes s.crc bytes }, []) := by
  induction bytes generalizing s with
  | nil => rfl
  | cons b rest ih =>
    rw [List.map_cons, play_cons, show decode (writeTxn 0x5 b) = .wrCrcDin b from rfl, ih rfl]
    simp [effect, returned, quiet, State.setCrc]

theorem play_reads_crc (s : State) :
    play [readTxn 0x3, readTxn 0x4] s =
      some ({ s with rdata := some (hiByte s.crc) }, [loByte s.crc, hiByte s.crc]) := rfl

/-- Settles O29: the writes fold the bytes into the initial value, and the two reads return what they made. -/
theorem checksumScriptReturnsChecksum : Obligations.ChecksumScriptReturnsChecksum := by
  intro bytes s
  refine ⟨loByte (checksum bytes), hiByte (checksum bytes), ?_, toNat_eq_bytes (checksum bytes)⟩
  rw [checksumScript_eq, play_cons, play_append, play_writes_crcDin bytes rfl, Option.bind_some, play_reads_crc]
  rfl

/-! ### The commands, legal and illegal (spec 30 R74, R77; 40 R112) -/

theorem decodeWord_command (op : Byte) : decodeWord (0x1000 ||| op.setWidth 16) = .ok (decodeCommand op) :=
  decodeWord_eq_ok.mpr ⟨commandTxn op, toWord_writeTxn 0x0 op, rfl⟩

/-- The 13 rows of illegal commands, with the opcode byte where a row has several. -/
abbrev illegalRows (op : Byte) : List Instr :=
  [.ill0505, .ill0607 op, .ill080F op, .ill1213 op, .ill1417 op, .ill181F op, .ill2223 op, .ill2427 op, .ill282F op,
    .ill3437 op, .ill383F op, .ill407F op, .ill80FF op]

/-- A byte that is no opcode decodes to a row of illegal commands (spec 30 R77). -/
theorem decodeCommand_illegal {op : Byte} (h : op ∉ opcodes) : decodeCommand op ∈ illegalRows op := by
  revert op; decide

theorem exec_illegal (op : Byte) (s : State) :
    ∀ i ∈ illegalRows op, exec i s = .next { s with err := s.err ||| 0x80, rdata := none } := by
  simp only [illegalRows, List.forall_mem_cons]
  exact ⟨rfl, rfl, rfl, rfl, rfl, rfl, rfl, rfl, rfl, rfl, rfl, rfl, rfl, List.forall_mem_nil _⟩

/-- Settles O2: the 13 opcodes by evaluating the decoder, the other bytes by the rows of illegal commands. -/
theorem commandTableDecodes : Obligations.CommandTableDecodes := by
  refine ⟨?_, fun _ => decodeCommand_illegal⟩
  simp only [decodeWord_command, List.forall_mem_cons]
  exact ⟨⟨rfl, rfl⟩, ⟨rfl, rfl⟩, ⟨rfl, rfl⟩, ⟨rfl, rfl⟩, ⟨rfl, rfl⟩, ⟨rfl, rfl⟩, ⟨rfl, rfl⟩, ⟨rfl, rfl⟩, ⟨rfl, rfl⟩,
    ⟨rfl, rfl⟩, ⟨rfl, rfl⟩, ⟨rfl, rfl⟩, ⟨rfl, rfl⟩, List.forall_mem_nil _⟩

/-- Settles O3, by evaluating the decoder at each word. -/
theorem specWordsDecode : Obligations.SpecWordsDecode := by
  simp only [Obligations.SpecWordsDecode, List.forall_mem_cons]
  exact ⟨rfl, rfl, rfl, rfl, rfl, rfl, rfl, rfl, rfl, rfl, rfl, rfl, rfl, rfl, rfl, rfl, List.forall_mem_nil _⟩

/-- Settles O26: an illegal byte decodes to a row of illegal commands, and each of these only raises `ILL`. -/
theorem illegalCommandsSetIll : Obligations.IllegalCommandsSetIll :=
  ⟨fun op s h => ⟨_, decodeWord_command op, rfl, exec_illegal op s _ (decodeCommand_illegal h)⟩, by decide +kernel,
    exec_illegal⟩

end Sys2Proof.Machine

/-! ## Family 40: bus and control. What each register access and each control command returns and changes

Every statement is the word of the transaction, its next state, and what the byte on the bus says. The last is read
off one lemma for each register view. -/

namespace Sys2Proof.Machine

/-! ### The words of writes -/

/-- A write's word is the word of its address with the data byte in the low half (spec 30 R70). -/
theorem decodeWord_write (a : BitVec 4) (v : Byte) :
    decodeWord ((writeTxn a 0x00).toWord ||| v.setWidth 16) = .ok (decodeWrite a v) :=
  decodeWord_eq_ok.mpr ⟨writeTxn a v, toWord_writeTxn a v, rfl⟩

theorem toWord_writeTxn_zero (a : BitVec 4) : (writeTxn a 0x00).toWord = 0x1000 ||| (a.setWidth 16 <<< 8) := by
  revert a; decide

/-! ### Control commands (spec 40 R106, R107, R110, R111) -/

/-- Settles O9: every element is reset by definition, and the reset state has no byte on the bus either. -/
theorem softResetGivesResetState : Obligations.SoftResetGivesResetState := ⟨rfl, fun _ => ⟨rfl, rfl⟩⟩

/-- Settles O25: each command's effect is its update of the state, by definition. -/
theorem controlCommands : Obligations.ControlCommands := ⟨rfl, rfl, rfl, fun _ => ⟨rfl, rfl, rfl⟩⟩

/-! ### The bits of the register views (spec 10 R34) -/

/-- A view that is `m` or nothing has the bits of `m` under the condition. -/
theorem getLsbD_ite_zero (p : Prop) [Decidable p] (m : Byte) (k : Nat) :
    (if p then m else 0x00).getLsbD k = (decide p && m.getLsbD k) := by
  by_cases h : p <;> simp [h]

/-- Bit `k` of `STATUS`: each of the six conditions adds the bits of its own mask (spec 40 R93). -/
theorem statusView_getLsbD (s : State) (k : Nat) :
    (statusView s).getLsbD k = (decide (s.err ≠ 0x00) && (0x01 : Byte).getLsbD k ||
      decide (s.keyLen = 16) && (0x02 : Byte).getLsbD k || decide (s.buf.length = 0) && (0x04 : Byte).getLsbD k ||
      decide (s.buf.length = 272) && (0x08 : Byte).getLsbD k ||
      decide (s.buf.length % 16 = 0) && (0x10 : Byte).getLsbD k ||
      decide (s.rptr = s.buf.length) && (0x20 : Byte).getLsbD k) := by
  simp only [statusView, BitVec.getLsbD_or, getLsbD_ite_zero]
  rfl

theorem natLo_getLsbD (n : Nat) {k : Nat} (h : k < 8) : (natLo n).getLsbD k = n.testBit k := by
  rw [natLo, BitVec.getLsbD_ofNat, decide_eq_true h, Bool.true_and]

/-- The high register of a split value shows bit 8 of it, as the number 0 or 1. -/
theorem natBit8_getLsbD (n : Nat) (k : Nat) : (natBit8 n).getLsbD k = (decide (k = 0) && n.testBit 8) := by
  rw [natBit8, ← Nat.toNat_testBit n 8]
  cases n.testBit 8 <;> simp

theorem keyLenView_toNat (s : State) : (keyLenView s).toNat = s.keyLen % 32 := by
  simp [keyLenView]
  omega

/-- Bits 7:5 of `KEY_LEN` are zero in every state, as its value is below 32. -/
theorem keyLenView_getLsbD {s : State} {k : Nat} (h : 5 ≤ k) : (keyLenView s).getLsbD k = false := by
  apply Nat.testBit_lt_two_pow
  calc (keyLenView s).toNat = s.keyLen % 32 := keyLenView_toNat s
    _ < 2 ^ 5 := Nat.mod_lt _ (by decide)
    _ ≤ 2 ^ k := Nat.pow_le_pow_right (by decide) h

/-! ### Reads without effect (spec 40 R93, R94, R96, R97, R101 to R105, R108) -/

/-- Settles O16: each mask of the view is one bit, shown under its own condition. -/
theorem statusReadBits : Obligations.StatusReadBits := by
  refine ⟨rfl, fun s => ⟨statusView s, rfl, ?_⟩⟩
  simp only [statusView_getLsbD]
  simp

/-- Settles O18: the two bytes returned make up `crc`. -/
theorem crcReads : Obligations.CrcReads :=
  ⟨rfl, rfl, fun s => ⟨loByte s.crc, hiByte s.crc, rfl, rfl, toNat_eq_bytes s.crc⟩⟩

/-- Settles O19: `blen` and `rptr` are split by the same two views. -/
theorem lengthAndPointerReads : Obligations.LengthAndPointerReads :=
  ⟨rfl, rfl, rfl, rfl, fun s => ⟨natLo s.blen, natBit8 s.blen, natLo s.rptr, natBit8 s.rptr, rfl, rfl, rfl, rfl,
    fun _ h => ⟨natLo_getLsbD s.blen h, natLo_getLsbD s.rptr h⟩,
    fun k _ => ⟨natBit8_getLsbD s.blen k, natBit8_getLsbD s.rptr k⟩⟩⟩

/-- Settles O20: the five bits shown hold every `key_len` up to 17. -/
theorem keyLengthRead : Obligations.KeyLengthRead := by
  refine ⟨rfl, fun s => ⟨keyLenView s, rfl, fun h => ?_, keyLenView_getLsbD (by decide), keyLenView_getLsbD (by decide),
    keyLenView_getLsbD (by decide)⟩⟩
  rw [keyLenView_toNat, Nat.mod_eq_of_lt (by omega)]

/-- Settles O23: each of the six reads is the empty read, by definition. -/
theorem writeOnlyAndReservedReadZero : Obligations.WriteOnlyAndReservedReadZero := by
  intro s
  simp only [List.forall_mem_cons]
  exact ⟨⟨rfl, rfl⟩, ⟨rfl, rfl⟩, ⟨rfl, rfl⟩, ⟨rfl, rfl⟩, ⟨rfl, rfl⟩, ⟨rfl, rfl⟩, List.forall_mem_nil _⟩

/-! ### Writes of the flags and ignored writes (spec 40 R94, R95, R109) -/

/-- Write one to clear, flag by flag (spec 40 R95). -/
theorem clearFlags_err_getLsbD (s : State) (m : Byte) {k : Nat} (h : k < 8) :
    (s.clearFlags m).err.getLsbD k = (s.err.getLsbD k && !m.getLsbD k) := by
  simp [h]

/-- Settles O17, the flags after the write by `clearFlags_err_getLsbD`. -/
theorem errReadAndWriteOneToClear : Obligations.ErrReadAndWriteOneToClear :=
  ⟨rfl, decodeWord_write 0x2, fun _ => rfl, fun m s => ⟨_, rfl, fun _ h => clearFlags_err_getLsbD s m h⟩⟩

/-- Settles O24: the word is that of a write to the address, and each of the eleven writes is the ignored write. -/
theorem readOnlyAndReservedWritesIgnored : Obligations.ReadOnlyAndReservedWritesIgnored := by
  intro v s
  simp only [← toWord_writeTxn_zero, decodeWord_write, List.forall_mem_cons]
  exact ⟨⟨rfl, rfl⟩, ⟨rfl, rfl⟩, ⟨rfl, rfl⟩, ⟨rfl, rfl⟩, ⟨rfl, rfl⟩, ⟨rfl, rfl⟩, ⟨rfl, rfl⟩, ⟨rfl, rfl⟩, ⟨rfl, rfl⟩,
    ⟨rfl, rfl⟩, ⟨rfl, rfl⟩, List.forall_mem_nil _⟩

/-! ### The buffer port (spec 40 R99, R100) -/

theorem exec_wrBufData_of_full (v : Byte) {s : State} (full : s.buf.length = 272) :
    exec (.wrBufData v) s = .next { s with err := s.err ||| 0x20, rdata := none } := by
  simp [exec_eq, effect, returned, bufFull, full, Config.bufCap, State.raise, Flag.mask, Flag.bit]

theorem exec_wrBufData_of_room (v : Byte) {s : State} (room : s.buf.length ≠ 272) :
    exec (.wrBufData v) s = .next { s with buf := s.buf ++ [v], rdata := none } := by
  simp [exec_eq, effect, returned, bufFull, room, Config.bufCap, State.append]

theorem exec_rdBufData_of_end {s : State} (done : s.rptr = s.buf.length) :
    exec .rdBufData s = .next { s with err := s.err ||| 0x40, rdata := some 0x00 } := by
  simp [exec_eq, effect, returned, readEnd, done, State.raise, Flag.mask, Flag.bit]

theorem exec_rdBufData_of_lt {s : State} (unread : s.rptr < s.buf.length) :
    exec .rdBufData s = .next { s with rptr := s.rptr + 1, rdata := some s.buf[s.rptr] } := by
  simp [exec_eq, effect, returned, readEnd, unread.ne, byteAt_of_lt _ _ unread, State.advance]

/-- Settles O21: a full buffer and one with room are the two branches of the port. -/
theorem bufferWriteAppends : Obligations.BufferWriteAppends :=
  ⟨decodeWord_write 0x6, fun v _ => ⟨exec_wrBufData_of_full v, exec_wrBufData_of_room v⟩⟩

/-- Settles O22: the end of the buffer and a byte before it are the two branches of the port. -/
theorem bufferReadAdvances : Obligations.BufferReadAdvances :=
  ⟨rfl, fun _ => ⟨exec_rdBufData_of_end, exec_rdBufData_of_lt⟩⟩

end Sys2Proof.Machine

/-! ## Family 41: the checksum engine. The fold bit by bit, and the three transactions that write `crc` -/

namespace Sys2Proof.Machine

/-! ### The fold of a byte and of a sequence (spec 41 R120, R121) -/

/-- `crcBits` is defined by its first iteration; the spec counts upward, by the last one (spec 41 R120). -/
theorem crcBits_succ (n : Nat) (r : Word16) : crcBits (n + 1) r = crcBit (crcBits n r) := by
  induction n generalizing r with
  | zero => rfl
  | succ n ih => exact ih (crcBit r)

theorem crcBytes_eq_foldl (c : Word16) (bytes : List Byte) : crcBytes c bytes = bytes.foldl crcStep c := by
  induction bytes generalizing c with
  | nil => rfl
  | cons b rest ih => exact ih (crcStep c b)

/-! ### The transactions of the engine (spec 41 R122 to R124) -/

/-- `CRC.BUF` folds the whole buffer: its slice from 0 to `blen` is all of it. -/
theorem exec_crcBuf (s : State) : exec .crcBuf s = .next { s with crc := crcBytes s.crc s.buf, rdata := none } := by
  simp [exec_eq, effect, returned, State.setCrc]

/-- Settles O27: the register after `n` iterations is `crcBits n`, and one more iteration is `crcBit` of it. -/
theorem crcPortFoldsByteBitByBit : Obligations.CrcPortFoldsByteBitByBit :=
  ⟨decodeWord_write 0x5, fun v s =>
    ⟨fun n => crcBits n (s.crc ^^^ v.setWidth 16), rfl, fun n _ => crcBits_succ n _, rfl, rfl⟩⟩

/-- Settles O28: the fold by induction on the bytes, `CRC.BUF` by `exec_crcBuf`, the rest by definition. -/
theorem crcInitAndCrcBuf : Obligations.CrcInitAndCrcBuf :=
  ⟨rfl, rfl, crcBytes_eq_foldl, fun _ => rfl, rfl, fun _ => rfl, exec_crcBuf⟩

end Sys2Proof.Machine

/-! ## Family 42: the cipher unit. The key port byte by byte, and the two cipher commands over any block function

Both commands are `ecbCommand` over one of the two block functions, so what a command does is proved once, over every
block function, and the round trip over every pair of which the second undoes the first. -/

namespace Sys2Proof.Machine

/-! ### The key port (spec 42 R142, R143) -/

theorem exec_wrKeyData_of_lt (v : Byte) {s : State} (h : s.keyLen < 16) :
    exec (.wrKeyData v) s =
      .next { s with key := s.key.set s.keyLen v h, keyLen := s.keyLen + 1, rdata := none } := by
  rw [exec_eq, effect, s.putKeyByte_of_lt v h]
  rfl

theorem exec_wrKeyData_of_ge (v : Byte) {s : State} (h : 16 ≤ s.keyLen) :
    exec (.wrKeyData v) s = .next { s with keyLen := 17, rdata := none } := by
  rw [exec_eq, effect, s.putKeyByte_of_ge v h]
  rfl

/-- Settles O35: the sixteenth byte divides the two branches of the port; `KEY.CLR` is its update of the state. -/
theorem keyBytesAndKeyClear : Obligations.KeyBytesAndKeyClear :=
  ⟨decodeWord_write 0xB, rfl, fun v _ => ⟨exec_wrKeyData_of_lt v, exec_wrKeyData_of_ge v⟩, fun _ => rfl⟩

/-- The key `k` after the host wrote `bytes` with `n` bytes written before: byte `i` of them stands at `n + i`. -/
def fillKey (k : Key) (n : Nat) (bytes : List Byte) : Key :=
  Vector.ofFn fun j => if n ≤ j.val then bytes.getD (j.val - n) k[j] else k[j]

theorem fillKey_getElem (k : Key) (n : Nat) (bytes : List Byte) {j : Nat} (h : j < 16) :
    (fillKey k n bytes)[j] = if n ≤ j then bytes.getD (j - n) k[j] else k[j] := by
  simp [fillKey]

theorem fillKey_nil (k : Key) (n : Nat) : fillKey k n [] = k := by
  ext j hj
  simp [fillKey_getElem]

theorem fillKey_of_ge (k : Key) {n : Nat} (bytes : List Byte) (h : 16 ≤ n) : fillKey k n bytes = k := by
  ext j hj
  rw [fillKey_getElem, if_neg (by omega)]

theorem fillKey_cons (k : Key) {n : Nat} (v : Byte) (rest : List Byte) (h : n < 16) :
    fillKey k n (v :: rest) = fillKey (k.set n v h) (n + 1) rest := by
  ext j hj
  rw [fillKey_getElem, fillKey_getElem, Vector.getElem_set]
  rcases Nat.lt_trichotomy j n with before | rfl | after
  · rw [if_neg (by omega), if_neg (by omega), if_neg (by omega)]
  · simp
  · have next : j - n = j - (n + 1) + 1 := by omega
    rw [if_pos (by omega), if_pos (by omega), if_neg (by omega), next, List.getD_cons_succ]

theorem transactionsOf_key (bytes : List Byte) : transactionsOf [.key bytes] = bytes.map (writeTxn 0xB) := by
  simp [transactionsOf, ScriptLine.expand, writesOf, Function.comp_def]

/-- The key port over a sequence: the bytes fill the key from `key_len` on, and `key_len` counts them up to 17. -/
theorem play_writes_keyData (bytes : List Byte) {s : State} (len : s.keyLen ≤ 17) :
    play (bytes.map (writeTxn 0xB)) s = some ({ s with
      key := fillKey s.key s.keyLen bytes, keyLen := min (s.keyLen + bytes.length) 17,
      rdata := if bytes = [] then s.rdata else none }, []) := by
  induction bytes generalizing s with
  | nil => simp [play, fillKey_nil, len]
  | cons v rest ih =>
    rw [List.map_cons, play, show decode (writeTxn 0xB v) = .wrKeyData v from rfl]
    rcases Nat.lt_or_ge s.keyLen 16 with room | full
    · have count : min (s.keyLen + 1 + rest.length) 17 = min (s.keyLen + (v :: rest).length) 17 := by
        rw [List.length_cons]; omega
      simp only [exec_wrKeyData_of_lt v room]
      rw [ih (Nat.succ_le_of_lt (Nat.lt_succ_of_lt room)), fillKey_cons s.key v rest room, ← count]
      simp
    · have count : min (17 + rest.length) 17 = min (s.keyLen + (v :: rest).length) 17 := by
        rw [List.length_cons]; omega
      simp only [exec_wrKeyData_of_ge v full]
      rw [ih (Nat.le_refl 17), fillKey_of_ge _ _ full, fillKey_of_ge _ _ (Nat.le_succ 16), ← count]
      simp

/-- Settles O36: from `key_len = 0` the key is filled from its first byte on. -/
theorem keySequenceLoads : Obligations.KeySequenceLoads := by
  intro bytes s empty
  refine ⟨fillKey s.key 0 bytes, ?_, fun j => ?_⟩
  · rw [transactionsOf_key, play_writes_keyData bytes (by omega), empty, Nat.zero_add]
  · have filled : (fillKey s.key 0 bytes)[j] = bytes.getD j.val s.key[j] := fillKey_getElem s.key 0 bytes j.isLt
    rw [filled]
    split
    next given => rw [List.getD_eq_getElem _ _ given, List.getD_eq_getElem _ _ given]
    next kept => rw [List.getD_eq_default _ _ (Nat.not_lt.mp kept)]

/-! ### Electronic codebook, block by block (spec 42 R145) -/

theorem blockOf_drop (bytes : List Byte) (a : Nat) :
    blockOf (bytes.drop a) = Vector.ofFn fun k => bytes.getD (a + k.val) 0x00 := by
  simp [blockOf, byteAt]

/-- Byte `j` of block `i` is byte `j` of `f` of that block, whatever the other blocks are. -/
theorem ecbBlocks_getElem? (f : Block → Block) {n i j : Nat} (bytes : List Byte) (hi : i < n) (hj : j < 16) :
    (ecbBlocks f n bytes)[16 * i + j]? = some (f (blockOf (bytes.drop (16 * i))))[j] := by
  induction n generalizing bytes i with
  | zero => omega
  | succ n ih =>
    cases i with
    | zero => simp [ecbBlocks, List.getElem?_append, hj]
    | succ i =>
      have past : 16 * (i + 1) + j = 16 + (16 * i + j) := by omega
      rw [ecbBlocks, List.getElem?_append_right (by simp; omega), past, Vector.length_toList, Nat.add_sub_cancel_left,
        ih _ (by omega), List.drop_drop, Nat.mul_succ, Nat.add_comm (16 * i) 16]

/-- A block function that undoes another undoes it on every whole block of a sequence. -/
theorem ecbBlocks_ecbBlocks {f g : Block → Block} (undo : ∀ p, g (f p) = p) {n : Nat} {bytes : List Byte}
    (whole : 16 * n ≤ bytes.length) : ecbBlocks g n (ecbBlocks f n bytes) = bytes := by
  induction n generalizing bytes with
  | zero => rfl
  | succ n ih =>
    have rest : ecbBlocks g n (ecbBlocks f n (bytes.drop 16)) = bytes.drop 16 := ih (by simp; omega)
    rw [ecbBlocks, ecbBlocks, blockOf_toList_append, List.drop_left' Vector.length_toList, rest, undo,
      blockOf_toList bytes (by omega), List.take_append_drop]

/-! ### The cipher commands (spec 42 R144 to R147) -/

theorem keyBad_iff (s : State) : keyBad s = true ↔ s.keyLen ≠ 16 := by simp [keyBad]

theorem blockBad_iff (s : State) : blockBad s = true ↔ s.buf.length % 16 ≠ 0 := by simp [blockBad]

theorem ecbCommand_of_bad (f : Key → Block → Block) {s : State} (bad : s.keyLen ≠ 16 ∨ s.buf.length % 16 ≠ 0) :
    ecbCommand f s = { s with
      err := s.err ||| (if s.keyLen ≠ 16 then 0x08 else 0x00) ||| (if s.buf.length % 16 ≠ 0 then 0x10 else 0x00) } := by
  rcases ecbCommand_cases f s with ⟨-, heq⟩ | ⟨key, whole, -⟩
  · simp only [heq, keyBad_iff, blockBad_iff]
    rfl
  · exact absurd bad (by simp [key, whole])

theorem ecbCommand_of_ready (f : Key → Block → Block) {s : State} (key : s.keyLen = 16)
    (whole : s.buf.length % 16 = 0) :
    ecbCommand f s = { s with buf := ecbBlocks (f s.key) (s.buf.length / 16) s.buf, rptr := 0 } := by
  rcases ecbCommand_cases f s with ⟨bad, -⟩ | ⟨-, -, heq⟩
  · rw [keyBad_iff, blockBad_iff] at bad
    exact absurd bad (by simp [key, whole])
  · exact heq

/-- What a cipher command over the block function `f` does when its preconditions hold, byte by byte. -/
theorem ecbCommand_of_ready_getElem? (f : Key → Block → Block) {s : State} (key : s.keyLen = 16)
    (whole : s.buf.length % 16 = 0) : ∃ out : List Byte,
      ecbCommand f s = { s with buf := out, rptr := 0 } ∧ out.length = s.buf.length ∧
      ∀ i, 16 * i < s.buf.length → ∀ j : Fin 16,
        out[16 * i + j.val]? = some (f s.key (Vector.ofFn fun k => s.buf.getD (16 * i + k.val) 0x00))[j] := by
  refine ⟨_, ecbCommand_of_ready f key whole, ecbBlocks_length _ _ _ (Nat.mul_div_le _ _), fun i hi j => ?_⟩
  rw [ecbBlocks_getElem? _ _ (by omega) j.isLt, blockOf_drop]
  rfl

/-- A cipher command restores the buffer that another changed when its block function undoes the other's. -/
theorem ecbCommand_ecbCommand {f g : Key → Block → Block} (undo : ∀ k p, g k (f k p) = p) {s : State}
    (key : s.keyLen = 16) (whole : s.buf.length % 16 = 0) :
    ecbCommand g { ecbCommand f s with rdata := none } = { s with rptr := 0, rdata := none } := by
  have len : (ecbBlocks (f s.key) (s.buf.length / 16) s.buf).length = s.buf.length :=
    ecbBlocks_length _ _ _ (Nat.mul_div_le _ _)
  have back : ecbBlocks (g s.key) (s.buf.length / 16) (ecbBlocks (f s.key) (s.buf.length / 16) s.buf) = s.buf :=
    ecbBlocks_ecbBlocks (undo s.key) (Nat.mul_div_le _ _)
  rw [ecbCommand_of_ready f key whole, ecbCommand_of_ready g]
  · rw [len, back]
  · exact key
  · rw [len, whole]

/-- Settles O37: the command is `ecbCommand` over `E`. -/
theorem ecbEncipher : Obligations.EcbEncipher := by
  refine ⟨rfl, fun s => ⟨fun bad => congrArg accept (ecbCommand_of_bad Config.E bad), fun key whole => ?_⟩⟩
  obtain ⟨out, heq, len, blocks⟩ := ecbCommand_of_ready_getElem? Config.E key whole
  exact ⟨out, congrArg accept heq, len, blocks⟩

/-- Settles O38: the command is `ecbCommand` over `D`. -/
theorem ecbDecipher : Obligations.EcbDecipher := by
  refine ⟨rfl, fun s => ⟨fun bad => congrArg accept (ecbCommand_of_bad Config.D bad), fun key whole => ?_⟩⟩
  obtain ⟨out, heq, len, blocks⟩ := ecbCommand_of_ready_getElem? Config.D key whole
  exact ⟨out, congrArg accept heq, len, blocks⟩

/-- Settles O39: `D` undoes `E` by the law of the cipher, and `E` undoes `D` as that law implies. -/
theorem ecbRoundTrip : Obligations.EcbRoundTrip := fun _ key whole =>
  ⟨⟨_, rfl, congrArg accept (ecbCommand_ecbCommand D_E key whole)⟩,
    ⟨_, rfl, congrArg accept (ecbCommand_ecbCommand E_D key whole)⟩⟩

end Sys2Proof.Machine

/-! ## Family 43: the framer. Each command's branches, what makes a frame valid, and what a link delivers

Each command gets one lemma for each branch. A buffer passes the three tests exactly when it is the frame of a body
(`frame_of_clear`, `exec_frmDec_frameOf`), from which the statements about both commands are read off. The theorems
that settle the family stand under `Framer`, as functions of the model have some of their names. -/

namespace Sys2Proof.Machine

/-! ### The commands, branch by branch (spec 43 R163, R164, R166, R167) -/

theorem exec_frmEnc_of_long {s : State} (long : 253 < s.buf.length) :
    exec .frmEnc s = .next { s with err := s.err ||| 0x20, rdata := none } := by
  rcases frameEncode_cases s with ⟨-, heq⟩ | ⟨fits, -⟩
  · exact congrArg accept heq
  · omega

theorem exec_frmEnc_of_fits {s : State} (fits : s.buf.length ≤ 253) :
    exec .frmEnc s = .next { s with
      buf := frameOf s.buf, crc := checksum (framePrefix s.buf), rptr := 0, rdata := none } := by
  rcases frameEncode_cases s with ⟨long, -⟩ | ⟨-, heq⟩
  · omega
  · exact congrArg accept heq

theorem exec_frmDec_of_short {s : State} (short : s.buf.length < 4) :
    exec .frmDec s = .next { s with err := s.err ||| 0x02, rdata := none } := by
  rcases frameDecode_cases s with ⟨-, heq⟩ | ⟨whole, -⟩ | ⟨whole, -⟩
  · exact congrArg accept heq
  all_goals omega

theorem exec_frmDec_of_bad {s : State} (whole : 4 ≤ s.buf.length)
    (bad : (hdrBad s.buf || lenBad s.buf || sumBad s.buf) = true) :
    exec .frmDec s = .next { s with
      crc := frameSum s.buf, rdata := none,
      err := s.err ||| (if hdrBad s.buf then 0x01 else 0x00) ||| (if lenBad s.buf then 0x02 else 0x00)
        ||| (if sumBad s.buf then 0x04 else 0x00) } := by
  rcases frameDecode_cases s with ⟨short, -⟩ | ⟨-, -, heq⟩ | ⟨-, hdr, len, sum, -⟩
  · omega
  · exact congrArg accept heq
  · simp [hdr, len, sum] at bad

theorem exec_frmDec_of_good {s : State} (whole : 4 ≤ s.buf.length)
    (good : (hdrBad s.buf || lenBad s.buf || sumBad s.buf) = false) :
    exec .frmDec s = .next { s with crc := frameSum s.buf, buf := bodyOf s.buf, rptr := 0, rdata := none } := by
  rcases frameDecode_cases s with ⟨short, -⟩ | ⟨-, bad, -⟩ | ⟨-, -, -, -, heq⟩
  · omega
  · exact absurd good (ne_false_of_eq_true bad)
  · exact congrArg accept heq

theorem exec_frmPad (s : State) :
    exec .frmPad s = .next { s with buf := s.buf ++ zeros (padLen s.buf.length), rptr := 0, rdata := none } := rfl

theorem exec_frmTrim_of_bad {s : State} (bad : s.buf.length < 2 ∨ s.buf.length < declaredSize s.buf) :
    exec .frmTrim s = .next { s with err := s.err ||| 0x02, rdata := none } := by
  rcases frameTrim_cases s with ⟨-, heq⟩ | ⟨two, fits, -⟩
  · exact congrArg accept heq
  · omega

/-- The declared size counts the length byte, so a buffer of that size has one. -/
theorem exec_frmTrim_of_fits {s : State} (fits : declaredSize s.buf ≤ s.buf.length) :
    exec .frmTrim s = .next { s with buf := s.buf.take (declaredSize s.buf), rptr := 0, rdata := none } := by
  have two : 2 ≤ declaredSize s.buf := Nat.le_add_left 2 _
  rcases frameTrim_cases s with ⟨bad, -⟩ | ⟨-, -, heq⟩
  · omega
  · exact congrArg accept heq

/-- Settles O41: a long body and one that fits are the two branches. -/
theorem Framer.frameEncode : Obligations.FrameEncode :=
  ⟨rfl, fun s => ⟨exec_frmEnc_of_long, fun fits => ⟨framePrefix s.buf, _, rfl, rfl, exec_frmEnc_of_fits fits⟩⟩⟩

/-- Settles O45: the pad is `padLen`. -/
theorem Framer.framePad : Obligations.FramePad :=
  ⟨rfl, fun s => ⟨padLen s.buf.length, padLen_lt _, add_padLen_mod _, exec_frmPad s, add_padLen_le_bufCap⟩⟩

/-- A byte that is there is what a read of its place gives. -/
theorem byteAt_of_getElem? {bytes : List Byte} {i : Nat} {b : Byte} (h : bytes[i]? = some b) : byteAt bytes i = b := by
  simp [byteAt, h]

theorem declaredSize_of_getElem? {bytes : List Byte} {b : Byte} (h : bytes[1]? = some b) :
    declaredSize bytes = b.toNat + 2 := by
  rw [declaredSize, byteAt_of_getElem? h]

/-- Settles O46: the length byte is absent, declares too much, or declares a size the buffer has. -/
theorem Framer.frameTrim : Obligations.FrameTrim := by
  refine ⟨rfl, fun s => ⟨fun short => exec_frmTrim_of_bad (.inl short), fun b hb beyond => ?_, fun b hb fits => ?_⟩⟩
  · exact exec_frmTrim_of_bad (.inr (by rwa [declaredSize_of_getElem? hb]))
  · rw [exec_frmTrim_of_fits (by rwa [declaredSize_of_getElem? hb]), declaredSize_of_getElem? hb]

/-! ### The three tests, on the bytes that are there (spec 43 R162) -/

theorem byteAt_eq_iff {bytes : List Byte} {i : Nat} (h : i < bytes.length) (b : Byte) :
    byteAt bytes i = b ↔ bytes[i]? = some b := by
  rw [byteAt_of_lt bytes i h, List.getElem?_eq_getElem h, Option.some.injEq]

theorem hdrBad_iff {frame : List Byte} (h : 4 ≤ frame.length) : hdrBad frame = true ↔ frame[0]? ≠ some 0xFE := by
  rw [hdrBad, bne_iff_ne, ne_eq, byteAt_eq_iff (by omega)]

theorem lenBad_iff {frame : List Byte} (h : 4 ≤ frame.length) :
    lenBad frame = true ↔ (frame[1]?).map BitVec.toNat ≠ some (frame.length - 2) := by
  rw [lenBad, bne_iff_ne, byteAt_of_lt frame 1 (by omega), List.getElem?_eq_getElem (by omega), Option.map_some, ne_eq,
    ne_eq, Option.some.injEq]

theorem sumBad_iff {frame : List Byte} (h : 4 ≤ frame.length) :
    sumBad frame = true ↔ frame[frame.length - 2]? ≠ some (loByte (frameSum frame)) ∨
      frame[frame.length - 1]? ≠ some (hiByte (frameSum frame)) := by
  rw [sumBad, Bool.or_eq_true, bne_iff_ne, bne_iff_ne, ne_eq, ne_eq, byteAt_eq_iff (by omega), byteAt_eq_iff (by omega)]

/-- Settles O43: the three tests on the bytes that are there, and the three branches of the command. -/
theorem Framer.frameDecode : Obligations.FrameDecode := by
  refine ⟨rfl, fun s => ⟨exec_frmDec_of_short, fun whole => ?_⟩⟩
  refine ⟨frameSum s.buf, hdrBad s.buf, lenBad s.buf, sumBad s.buf, rfl, ?_, ?_, ?_, exec_frmDec_of_bad whole,
    exec_frmDec_of_good whole⟩
  · exact Bool.eq_iff_iff.mpr ((hdrBad_iff whole).trans decide_eq_true_iff.symm)
  · exact Bool.eq_iff_iff.mpr ((lenBad_iff whole).trans decide_eq_true_iff.symm)
  · exact Bool.eq_iff_iff.mpr ((sumBad_iff whole).trans decide_eq_true_iff.symm)

/-! ### A buffer passes the tests exactly when it is a frame (spec 43 R161, R162) -/

/-- The layout of a frame (spec 43 R161). -/
theorem frameOf_eq_cons (body : List Byte) :
    frameOf body = Config.header :: natLo (body.length + 2) :: (body ++ wordBytes (checksum (framePrefix body))) := rfl

/-- Whatever follows a frame, its length byte declares its own size. -/
theorem declaredSize_frameOf_append {body : List Byte} (fits : body.length ≤ 253) (rest : List Byte) :
    declaredSize (frameOf body ++ rest) = (frameOf body).length := by
  rw [declaredSize, frameOf_length, frameOf_eq_cons]
  exact congrArg (· + 2) (natLo_toNat _ (by omega))

theorem frameSum_frameOf (body : List Byte) : frameSum (frameOf body) = checksum (framePrefix body) := by
  rw [frameSum, slice_zero, frameOf_length, Nat.add_sub_assoc (by decide), frameOf_take]

theorem bodyOf_frameOf (body : List Byte) : bodyOf (frameOf body) = body := by
  rw [bodyOf, slice, frameOf_length, Nat.add_sub_assoc (by decide), frameOf_take]
  rfl

/-- The last two bytes are the checksum's exactly when the buffer is its other bytes followed by their checksum. -/
theorem sumBad_eq_false_iff {frame : List Byte} (h : 4 ≤ frame.length) :
    sumBad frame = false ↔ frame.drop (frame.length - 2) = wordBytes (frameSum frame) := by
  have last : frame.drop (frame.length - 2) =
      [byteAt frame (frame.length - 2), byteAt frame (frame.length - 1)] := by
    rw [byteAt_of_lt _ _ (by omega), byteAt_of_lt _ _ (by omega), List.drop_eq_getElem_cons (by omega),
      List.drop_eq_getElem_cons (by omega), List.drop_eq_nil_of_le (by omega)]
    simp only [show frame.length - 2 + 1 = frame.length - 1 by omega]
  simp [last, sumBad, wordBytes]

theorem hdrBad_frameOf (body : List Byte) : hdrBad (frameOf body) = false := rfl

theorem lenBad_frameOf {body : List Byte} (fits : body.length ≤ 253) : lenBad (frameOf body) = false := by
  have size := declaredSize_frameOf_append fits []
  rw [List.append_nil, declaredSize] at size
  simp [lenBad, ← size]

theorem sumBad_frameOf (body : List Byte) : sumBad (frameOf body) = false := by
  rw [sumBad_eq_false_iff (by simp), frameSum_frameOf]
  exact List.drop_left' (by simp)

/-- The two tests of the header and the length byte fix what stands before the body. -/
theorem framePrefix_bodyOf {frame : List Byte} (whole : 4 ≤ frame.length) (hdr : hdrBad frame = false)
    (len : lenBad frame = false) : framePrefix (bodyOf frame) = frame.take (frame.length - 2) := by
  match frame, whole with
  | h :: l :: rest, whole =>
    obtain ⟨m, hm⟩ : ∃ m, rest.length = m + 2 := Nat.exists_eq_add_of_le' (by simpa using whole)
    have sentinel : h = Config.header := by simpa [hdrBad, byteAt] using hdr
    have declared : l = natLo (m + 2) := by
      have : l.toNat = m + 2 := by simpa [lenBad, byteAt, hm] using len
      rw [natLo, ← this, BitVec.ofNat_toNat, BitVec.setWidth_eq]
    simp [framePrefix, bodyOf, slice, hm, sentinel, declared]

/-- A buffer that passes the three tests is the frame of its body. -/
theorem frameOf_bodyOf {frame : List Byte} (whole : 4 ≤ frame.length) (hdr : hdrBad frame = false)
    (len : lenBad frame = false) (sum : sumBad frame = false) : frameOf (bodyOf frame) = frame := by
  have trailer := (sumBad_eq_false_iff whole).mp sum
  calc frameOf (bodyOf frame)
    _ = frame.take (frame.length - 2) ++ wordBytes (frameSum frame) := by
      rw [frameOf, framePrefix_bodyOf whole hdr len]; rfl
    _ = frame := by rw [← trailer, List.take_append_drop]

/-- Settles O42: the header and the length byte stand before the body, and after it the bytes that the checksum's test
asks for. -/
theorem Framer.frameLayout : Obligations.FrameLayout := by
  intro s t fits h
  obtain rfl := Host.Outcome.next.inj ((exec_frmEnc_of_fits fits).symm.trans h)
  have len : (frameOf s.buf).length = s.buf.length + 4 := frameOf_length s.buf
  have trailer := (sumBad_iff (frame := frameOf s.buf) (by omega)).not.mp (by simp [sumBad_frameOf])
  rw [not_or, not_ne_iff, not_ne_iff] at trailer
  refine ⟨len, rfl, congrArg some (natLo_toNat _ (by omega)), fun i hi => ?_, ?_⟩
  · exact List.getElem?_append_left (l₁ := s.buf) hi
  · exact ⟨_, _, trailer.1, trailer.2, toNat_eq_bytes (frameSum (frameOf s.buf))⟩

/-! ### Validation after framing (spec 43 R164, R170 (a)) -/

theorem exec_frmDec_frameOf {body : List Byte} (fits : body.length ≤ 253) {s : State} (frame : s.buf = frameOf body) :
    exec .frmDec s =
      .next { s with crc := checksum (framePrefix body), buf := body, rptr := 0, rdata := none } := by
  have good : (hdrBad s.buf || lenBad s.buf || sumBad s.buf) = false := by
    simp [frame, hdrBad_frameOf, lenBad_frameOf fits, sumBad_frameOf]
  rw [exec_frmDec_of_good (by simp [frame]) good, frame, frameSum_frameOf, bodyOf_frameOf]

/-- Settles O47: `FRM.DEC` accepts the frame that `FRM.ENC` leaves, and changes no flag. -/
theorem Framer.frameRoundTrip : Obligations.FrameRoundTrip := fun _ fits =>
  ⟨_, _, exec_frmEnc_of_fits fits, exec_frmDec_frameOf fits rfl, rfl, rfl, rfl, rfl, rfl, rfl⟩

/-- A failing test leaves its flag set. -/
theorem frameTests_pass_of_clear {h l x : Bool} {e : Byte} (clear : e ||| (if h then 0x01 else 0x00) |||
    (if l then 0x02 else 0x00) ||| (if x then 0x04 else 0x00) = 0x00) : (h || l || x) = false := by
  have flags : e = 0x00 ∧ h = false ∧ l = false ∧ x = false := by
    simpa [BitVec.or_eq_zero_iff, and_assoc] using clear
  simp [flags]

/-- A body fits whose frame, with its two bytes of header and length, the length byte can declare. -/
theorem bodyOf_length_le {frame : List Byte} (len : lenBad frame = false) : (bodyOf frame).length ≤ 253 := by
  have declared : (byteAt frame 1).toNat = frame.length - 2 := by simpa [lenBad] using len
  have := (byteAt frame 1).isLt
  rw [bodyOf, slice_length]
  omega

/-- What is validated with no flag left set is the frame of a body. -/
theorem frame_of_clear {s t : State} (h : exec .frmDec s = .next t) (clear : t.err = 0x00) :
    ∃ body : List Byte, body.length ≤ 253 ∧ s.buf = frameOf body := by
  rcases Nat.lt_or_ge s.buf.length 4 with short | whole
  · obtain rfl := Host.Outcome.next.inj ((exec_frmDec_of_short short).symm.trans h)
    simp at clear
  · cases tests : hdrBad s.buf || lenBad s.buf || sumBad s.buf with
    | true =>
      obtain rfl := Host.Outcome.next.inj ((exec_frmDec_of_bad whole tests).symm.trans h)
      exact absurd (frameTests_pass_of_clear clear) (ne_false_of_eq_true tests)
    | false =>
      simp only [Bool.or_eq_false_iff] at tests
      obtain ⟨⟨hdr, len⟩, sum⟩ := tests
      exact ⟨bodyOf s.buf, bodyOf_length_le len, (frameOf_bodyOf whole hdr len sum).symm⟩

/-- Settles O44: what leaves no flag set is the frame of a body, and the frame of a body is accepted. -/
theorem Framer.decodeAcceptsExactlyFrames : Obligations.DecodeAcceptsExactlyFrames := by
  intro s t clear h
  constructor
  · intro accepted
    obtain ⟨body, fits, frame⟩ := frame_of_clear h accepted
    obtain rfl := Host.Outcome.next.inj ((exec_frmDec_frameOf fits frame).symm.trans h)
    exact ⟨{ s with buf := body }, fits, by rw [exec_frmEnc_of_fits fits, frame], rfl⟩
  · rintro ⟨u, fits, encoded, -⟩
    have frame : frameOf u.buf = s.buf :=
      congrArg State.buf (Host.Outcome.next.inj ((exec_frmEnc_of_fits fits).symm.trans encoded))
    obtain rfl := Host.Outcome.next.inj ((exec_frmDec_frameOf fits frame.symm).symm.trans h)
    exact clear

/-! ### One flipped bit (spec 41 R126 (d), 43 R170 (c)) -/

/-- The bit shifted out comes back at bit 15, as the polynomial has that bit. -/
theorem crcBit_getLsbD_15 (r : Word16) : (crcBit r).getLsbD 15 = r.getLsbD 0 := by
  cases h : r.getLsbD 0 <;> simp only [crcBit, h] <;> simp

/-- One iteration loses nothing: the bit shifted out and the fifteen others are read back. -/
theorem crcBit_injective : Function.Injective crcBit := by
  intro r q h
  have low : r.getLsbD 0 = q.getLsbD 0 := by rw [← crcBit_getLsbD_15, h, crcBit_getLsbD_15]
  have high : r >>> 1 = q >>> 1 := by
    simp only [crcBit, low] at h
    split at h
    · exact (BitVec.xor_left_inj _).mp h
    · exact h
  ext i hi
  cases i with
  | zero => exact low
  | succ i => simpa [Nat.add_comm, ← BitVec.getLsbD_eq_getElem] using congrArg (·.getLsbD i) high

theorem crcBits_injective (n : Nat) : Function.Injective (crcBits n) := by
  induction n with
  | zero => exact Function.injective_id
  | succ n ih => exact ih.comp crcBit_injective

theorem crcStep_register_injective (b : Byte) : Function.Injective (crcStep · b) :=
  (crcBits_injective 8).comp fun _ _ h => (BitVec.xor_left_inj (zext16 b)).mp h

theorem crcStep_byte_injective (c : Word16) : Function.Injective (crcStep c) := by
  refine (crcBits_injective 8).comp fun a b h => ?_
  have : zext16 a = zext16 b := (BitVec.xor_right_inj c).mp h
  simpa [zext16] using congrArg (BitVec.setWidth 8) this

theorem crcBytes_injective (bytes : List Byte) : Function.Injective (crcBytes · bytes) := by
  induction bytes with
  | nil => exact Function.injective_id
  | cons b rest ih => exact ih.comp (crcStep_register_injective b)

/-- Two sequences that differ in one byte have different folds. -/
theorem crcBytes_set_ne (c : Word16) {bytes : List Byte} {k : Nat} {v : Byte} (hk : k < bytes.length)
    (hv : v ≠ bytes[k]) : crcBytes c (bytes.set k v) ≠ crcBytes c bytes := by
  induction bytes generalizing c k with
  | nil => simp at hk
  | cons b rest ih =>
    cases k with
    | zero => exact fun h => hv (crcStep_byte_injective c (crcBytes_injective rest h))
    | succ k => exact ih (crcStep c b) (Nat.lt_of_succ_lt_succ hk) hv

theorem wordBytes_injective : Function.Injective wordBytes := by
  intro c d h
  obtain ⟨lo, hi⟩ : loByte c = loByte d ∧ hiByte c = hiByte d := by simpa [wordBytes] using h
  exact word_ext c d lo hi

/-- One other byte in a sequence that carries its own checksum breaks the checksum's test, wherever it stands. -/
theorem sumBad_set {frame : List Byte} (whole : 4 ≤ frame.length) (sum : sumBad frame = false) {k : Nat} {v : Byte}
    (hk : k < frame.length) (hv : v ≠ frame[k]) : sumBad (frame.set k v) = true := by
  by_contra good
  rw [Bool.not_eq_true, sumBad_eq_false_iff (by simpa), frameSum, slice_zero, List.length_set, List.take_set] at good
  rw [sumBad_eq_false_iff whole, frameSum, slice_zero] at sum
  rcases Nat.lt_or_ge k (frame.length - 2) with covered | trailing
  · rw [List.drop_set_of_lt covered, sum] at good
    exact crcBytes_set_ne Config.crcInit (by simp; omega) (by simpa using hv) (wordBytes_injective good).symm
  · have kept : (frame.take (frame.length - 2)).set k v = frame.take (frame.length - 2) :=
      List.set_eq_of_length_le (by simp; omega)
    have same : frame.set k v = frame := by
      rw [← List.take_append_drop (frame.length - 2) (frame.set k v), List.take_set, good, kept, ← sum,
        List.take_append_drop]
    exact hv (by simpa [hk] using congrArg (·[k]?) same)

theorem byteAt_set {bytes : List Byte} {k : Nat} (hk : k < bytes.length) (v : Byte) (i : Nat) :
    byteAt (bytes.set k v) i = if k = i then v else byteAt bytes i := by
  by_cases h : k = i
  · subst h; simp [byteAt, hk]
  · simp [byteAt, h]

theorem hdrBad_set {frame : List Byte} (hdr : hdrBad frame = false) {k : Nat} {v : Byte}
    (hk : k < frame.length) (hv : v ≠ frame[k]) : hdrBad (frame.set k v) = decide (k = 0) := by
  simp only [hdrBad, bne_eq_false_iff_eq] at hdr
  rw [hdrBad, byteAt_set hk]
  by_cases h : k = 0
  · subst h
    rw [byteAt_of_lt _ _ hk] at hdr
    simpa [hdr] using hv
  · simp [h, hdr]

theorem lenBad_set {frame : List Byte} (len : lenBad frame = false) {k : Nat} {v : Byte}
    (hk : k < frame.length) (hv : v ≠ frame[k]) : lenBad (frame.set k v) = decide (k = 1) := by
  simp only [lenBad, bne_eq_false_iff_eq] at len
  rw [lenBad, List.length_set, byteAt_set hk, ← len]
  by_cases h : k = 1
  · subst h
    rw [byteAt_of_lt _ _ hk]
    simpa [← BitVec.toNat_inj] using hv
  · simp [h]

theorem xor_bit_ne (v : Byte) {b : Nat} (hb : b < 8) : v ^^^ (0x01#8 <<< b) ≠ v := by
  have bit : ∀ b < 8, 0x01#8 <<< b ≠ 0#8 := by decide
  intro h
  exact bit b hb ((BitVec.xor_right_inj v).mp (h.trans (BitVec.xor_zero).symm))

/-- Settles O49: the checksum's test fails whichever bit is flipped, the other two only at their own byte. -/
theorem Framer.singleBitFlipRejected : Obligations.SingleBitFlipRejected := by
  intro s t k b hk hb fits h
  obtain rfl := Host.Outcome.next.inj ((exec_frmEnc_of_fits fits).symm.trans h)
  have hv := xor_bit_ne (frameOf s.buf)[k] hb
  have hdr := hdrBad_set (hdrBad_frameOf s.buf) hk hv
  have len := lenBad_set (lenBad_frameOf fits) hk hv
  have sum := sumBad_set (by simp) (sumBad_frameOf s.buf) hk hv
  refine ⟨_, _, rfl, exec_frmDec_of_bad (by simp) (by simp [sum]), rfl, ?_⟩
  simp only [hdr, len, sum, decide_eq_true_eq, BitVec.or_assoc]
  match k with
  | 0 | 1 => rfl
  | k + 2 => simp

/-! ### A body over the link (spec 43 R168, R169, R170 (b)) -/

/-- A write is played by its next state; the bus returns nothing. -/
theorem play_cons_of_quiet {x : Transaction} {s t : State} (h : exec (decode x) s = .next t) (quiet : t.rdata = none)
    {rest : List Transaction} : play (x :: rest) s = play rest t := by
  simp [play, h, quiet]

theorem play_writes_bufData {bytes : List Byte} {s : State} (room : s.buf.length + bytes.length ≤ 272)
    (quiet : s.rdata = none) :
    play (bytes.map (writeTxn 0x6)) s = some ({ s with buf := s.buf ++ bytes }, []) := by
  induction bytes generalizing s with
  | nil => simp [play]
  | cons b rest ih =>
    rw [List.length_cons] at room
    rw [List.map_cons, play_cons_of_quiet (x := writeTxn 0x6 b) (exec_wrBufData_of_room b (by omega)) rfl,
      ih (by simp; omega) rfl]
    simp [quiet]

/-- The shape of both paths of the link: `BUF.CLR`, a load of the buffer, then three commands. -/
theorem play_load_commands {bytes : List Byte} (room : bytes.length ≤ 272) {op₁ op₂ op₃ : Byte} {s a b c : State}
    (h₁ : exec (decodeCommand op₁) { s with buf := bytes, rptr := 0, rdata := none } = .next a) (ha : a.rdata = none)
    (h₂ : exec (decodeCommand op₂) a = .next b) (hb : b.rdata = none)
    (h₃ : exec (decodeCommand op₃) b = .next c) (hc : c.rdata = none) :
    play (transactionsOf [.command 0x02, .load bytes, .command op₁, .command op₂, .command op₃]) s = some (c, []) := by
  have script : transactionsOf [.command 0x02, .load bytes, .command op₁, .command op₂, .command op₃] =
      commandTxn 0x02 :: (bytes.map (writeTxn 0x6) ++ [commandTxn op₁, commandTxn op₂, commandTxn op₃]) := by
    simp [transactionsOf, ScriptLine.expand, writesOf, Function.comp_def]
  have commands : play [commandTxn op₁, commandTxn op₂, commandTxn op₃] { s with
      buf := bytes, rptr := 0, rdata := none } = some (c, []) := by
    rw [play_cons_of_quiet (x := commandTxn op₁) h₁ ha, play_cons_of_quiet (x := commandTxn op₂) h₂ hb,
      play_cons_of_quiet (x := commandTxn op₃) h₃ hc, play]
  rw [script, play_cons_of_quiet (t := { s with buf := [], rptr := 0, rdata := none }) rfl rfl, play_append,
    play_writes_bufData (by simpa) rfl]
  simp [commands]

/-- The frame of a body, padded to a whole number of blocks: what the send path enciphers. -/
def paddedFrame (body : List Byte) : List Byte := frameOf body ++ zeros (padLen (frameOf body).length)

theorem paddedFrame_length_mod (body : List Byte) : (paddedFrame body).length % 16 = 0 := by
  rw [paddedFrame, List.length_append, zeros_length, add_padLen_mod]

theorem paddedFrame_length_le {body : List Byte} (fits : body.length ≤ 253) : (paddedFrame body).length ≤ 272 := by
  rw [paddedFrame, List.length_append, zeros_length]
  exact add_padLen_le_bufCap (by simp; omega)

/-- `FRM.TRIM` takes the pad off again. -/
theorem exec_frmTrim_paddedFrame {body : List Byte} (fits : body.length ≤ 253) {s : State}
    (padded : s.buf = paddedFrame body) :
    exec .frmTrim s = .next { s with buf := frameOf body, rptr := 0, rdata := none } := by
  have size : declaredSize s.buf = (frameOf body).length := by
    rw [padded]; exact declaredSize_frameOf_append fits _
  rw [exec_frmTrim_of_fits (by rw [size, padded, paddedFrame]; simp), size, padded, paddedFrame, List.take_left]

/-- What goes over the link for a body under a key. -/
def sentBytes (k : Key) (body : List Byte) : List Byte :=
  ecbBlocks (Config.E k) ((paddedFrame body).length / 16) (paddedFrame body)

theorem sentBytes_length (k : Key) (body : List Byte) : (sentBytes k body).length = (paddedFrame body).length :=
  ecbBlocks_length _ _ _ (Nat.mul_div_le _ _)

theorem exec_ecbEnc_paddedFrame {body : List Byte} {s : State} (key : s.keyLen = 16)
    (padded : s.buf = paddedFrame body) :
    exec .ecbEnc s = .next { s with buf := sentBytes s.key body, rptr := 0, rdata := none } := by
  have ready := ecbCommand_of_ready Config.E key (padded ▸ paddedFrame_length_mod body)
  rw [padded] at ready
  exact congrArg accept ready

/-- The law of the cipher, on every block of what was sent. -/
theorem exec_ecbDec_sentBytes {body : List Byte} {s : State} (key : s.keyLen = 16)
    (sent : s.buf = sentBytes s.key body) :
    exec .ecbDec s = .next { s with buf := paddedFrame body, rptr := 0, rdata := none } := by
  have len : s.buf.length = (paddedFrame body).length := by rw [sent, sentBytes_length]
  have ready := ecbCommand_of_ready Config.D key (len ▸ paddedFrame_length_mod body)
  rw [len, sent, sentBytes, ecbBlocks_ecbBlocks (D_E s.key) (Nat.mul_div_le _ _)] at ready
  exact congrArg accept ready

theorem play_sendScript {body : List Byte} (fits : body.length ≤ 253) {s : State} (key : s.keyLen = 16) :
    play (sendScript body) s = some ({ s with
      crc := checksum (framePrefix body), buf := sentBytes s.key body, rptr := 0, rdata := none }, []) :=
  play_load_commands (by omega) (exec_frmEnc_of_fits (s := { s with buf := body, rptr := 0, rdata := none }) fits) rfl
    (exec_frmPad _) rfl (exec_ecbEnc_paddedFrame key rfl) rfl

theorem play_receiveScript {body : List Byte} (fits : body.length ≤ 253) {r : State} (key : r.keyLen = 16) :
    play (receiveScript (sentBytes r.key body)) r = some ({ r with
      crc := checksum (framePrefix body), buf := body, rptr := 0, rdata := none }, []) :=
  play_load_commands (by rw [sentBytes_length]; exact paddedFrame_length_le fits) (exec_ecbDec_sentBytes key rfl) rfl
    (exec_frmTrim_paddedFrame fits rfl) rfl (exec_frmDec_frameOf fits rfl) rfl

/-- Settles O48: the block with the same key receives what it would have sent, and the two paths change no flag. -/
theorem Framer.linkDeliversBody : Obligations.LinkDeliversBody := by
  intro body s r fits sKey rKey same
  have len := sentBytes_length s.key body
  have whole := paddedFrame_length_mod body
  have pos : 4 ≤ (paddedFrame body).length := by simp [paddedFrame]; omega
  refine ⟨_, { r with crc := checksum (framePrefix body), buf := body, rptr := 0, rdata := none },
    play_sendScript fits sKey, rfl, rfl, len ▸ whole, by simp only [len]; omega, len ▸ paddedFrame_length_le fits, ?_,
    rfl, rfl, rfl⟩
  rw [same]
  exact play_receiveScript fits rKey

end Sys2Proof.Machine

/-! ## Family 60: exceptions. Every transaction completes, and the flags say exactly what was detected

For each instruction that can detect something, one lemma turns the causes of R191's table into the test its meaning
makes (`raises_…_iff`), and one reads off the branches of that meaning that the flags it leaves are those set before
and those detected (`SetsDetected`). -/

namespace Sys2Proof.Machine

/-! ### Every transaction completes (spec 60 R203, 40 R90) -/

theorem effect_pending (i : Instr) (s : State) : (effect i s).pending = s.pending :=
  have kept := congrArg State.pending (effect_withPending i s s.pending)
  kept

theorem returned_isSome (i : Instr) (s : State) : (returned i s).isSome = i.isRead := by
  cases i <;> rfl

theorem isRead_decode (x : Transaction) : (decode x).isRead = !x.we := by
  obtain ⟨_ | _, a, v⟩ := x
  · exact congrArg (fun y => !y.we) (decodeRead_spec a).2
  · exact congrArg (fun y => !y.we) (decodeWrite_spec a v).2

theorem step_completes (s : State) : ∃ t, step s = .next t := by
  rcases step_cases s with ⟨-, heq⟩ | ⟨rest, -, heq⟩ | ⟨x, rest, -, heq⟩
  · exact ⟨_, heq⟩
  · exact ⟨_, heq⟩
  · exact ⟨_, heq.trans (exec_eq _ _)⟩

/-- Settles O14: no arm of `exec` stops, and a byte is returned exactly by what decodes as a read. -/
theorem everyTransactionCompletes : Obligations.EveryTransactionCompletes := by
  refine ⟨fun x s => ⟨_, exec_eq _ s, effect_pending _ s, fun write => ?_, fun read => ?_⟩, fun i s => ⟨_, exec_eq i s⟩,
    step_completes⟩
  · exact Option.not_isSome_iff_eq_none.mp (by simp [returned_isSome, isRead_decode, write])
  · exact Option.isSome_iff_exists.mp (by simp [returned_isSome, isRead_decode, read])

/-! ### The causes of the flags (spec 60 R191) -/

/-- An instruction of an illegal row is encoded as a command, whose opcode its data field holds (spec 30 R77). -/
theorem encode_illegal (op : Byte) : ∀ i ∈ illegalRows op, encode i = commandTxn (encode i).wdata := by
  simp only [illegalRows, List.forall_mem_cons]
  exact ⟨rfl, rfl, rfl, rfl, rfl, rfl, rfl, rfl, rfl, rfl, rfl, rfl, rfl, List.forall_mem_nil _⟩

/-- An opcode of spec 30 R74 decodes to no row of illegal commands. -/
theorem decodeCommand_legal {op : Byte} (h : op ∈ opcodes) (v : Byte) : decodeCommand op ∉ illegalRows v := by
  revert op
  simp only [opcodes, List.forall_mem_cons]
  simp [decodeCommand]

/-- The bytes that are no opcode stand for the well-formed instructions of the illegal rows (spec 30 R77). -/
theorem raises_ill_iff {i : Instr} {s : State} : Raises i s .ill ↔ i.wf = true ∧ ∃ op, i ∈ illegalRows op := by
  constructor
  · rintro ⟨op, illegal, rfl⟩
    exact ⟨decode_wf _, op, decodeCommand_illegal illegal⟩
  · rintro ⟨wf, op, row⟩
    have back : i = decode (commandTxn (encode i).wdata) := by rw [← encode_illegal op i row, decode_encode wf]
    refine ⟨(encode i).wdata, fun legal => ?_, back⟩
    rw [back] at row
    exact decodeCommand_legal legal op row

/-- The instructions that detect something about the state; a write of `BUF_DATA` is the other (spec 60 R191). -/
abbrev stateTests : List Instr := [.ecbEnc, .ecbDec, .frmEnc, .frmDec, .frmTrim, .rdBufData]

/-- All that any other instruction can detect is that it is illegal. -/
theorem eq_ill_of_raises {i : Instr} {s : State} {f : Flag} (other : i ∉ stateTests) (write : ∀ v, i ≠ .wrBufData v)
    (raised : Raises i s f) : f = .ill := by
  simp only [stateTests, List.mem_cons, List.not_mem_nil, or_false, not_or] at other
  obtain ⟨ecbEnc, ecbDec, frmEnc, frmDec, frmTrim, rdBufData⟩ := other
  cases f with
  | hdr | csum => exact absurd raised.1 frmDec
  | len => exact (raised.elim (frmDec ·.1) (frmTrim ·.1)).elim
  | keylen | blklen => exact (raised.1.elim ecbEnc ecbDec).elim
  | ovf => exact (raised.elim (fun ⟨⟨v, h⟩, _⟩ => write v h) (frmEnc ·.1)).elim
  | unf => exact absurd raised.1 rdBufData
  | ill => rfl

theorem illegalRows_other (op : Byte) : ∀ i ∈ illegalRows op, i ∉ stateTests ∧ ∀ v, i ≠ .wrBufData v := by
  simp

theorem raises_illegal_iff {i : Instr} (wf : i.wf = true) {op : Byte} (row : i ∈ illegalRows op) (s : State) (f : Flag) :
    Raises i s f ↔ f = .ill := by
  obtain ⟨other, write⟩ := illegalRows_other op i row
  exact ⟨eq_ill_of_raises other write, fun h => h ▸ raises_ill_iff.mpr ⟨wf, op, row⟩⟩

theorem not_raises {i : Instr} (other : i ∉ stateTests) (write : ∀ v, i ≠ .wrBufData v) (legal : ∀ op, i ∉ illegalRows op)
    (s : State) (f : Flag) : ¬ Raises i s f := by
  intro raised
  obtain rfl := eq_ill_of_raises other write raised
  obtain ⟨-, op, row⟩ := raises_ill_iff.mp raised
  exact legal op row

theorem raises_ecb_iff {i : Instr} (cipher : i = .ecbEnc ∨ i = .ecbDec) (s : State) (f : Flag) :
    Raises i s f ↔ f = .keylen ∧ s.keyLen ≠ 16 ∨ f = .blklen ∧ s.buf.length % 16 ≠ 0 := by
  rcases cipher with rfl | rfl <;> cases f <;> simp [↓raises_ill_iff, Raises]

theorem raises_frmEnc_iff (s : State) (f : Flag) : Raises .frmEnc s f ↔ f = .ovf ∧ 253 < s.buf.length := by
  cases f <;> simp [↓raises_ill_iff, Raises]

theorem raises_frmTrim_iff (s : State) (f : Flag) :
    Raises .frmTrim s f ↔ f = .len ∧ (s.buf.length < 2 ∨ s.buf.length < declaredSize s.buf) := by
  cases f <;> simp [↓raises_ill_iff, Raises, declaredSize]

theorem raises_wrBufData_iff (v : Byte) (s : State) (f : Flag) :
    Raises (.wrBufData v) s f ↔ f = .ovf ∧ s.buf.length = 272 := by
  cases f <;> simp [↓raises_ill_iff, Raises]

theorem raises_rdBufData_iff (s : State) (f : Flag) : Raises .rdBufData s f ↔ f = .unf ∧ s.rptr = s.buf.length := by
  cases f <;> simp [↓raises_ill_iff, Raises]

theorem hdrBad_iff_head? {frame : List Byte} (h : 4 ≤ frame.length) : hdrBad frame = true ↔ frame.head? ≠ some 0xFE := by
  rw [hdrBad_iff h, List.head?_eq_getElem?]

theorem raises_frmDec_short_iff {s : State} (short : s.buf.length < 4) (f : Flag) : Raises .frmDec s f ↔ f = .len := by
  cases f <;> simp [↓raises_ill_iff, Raises, short]

theorem raises_frmDec_iff {s : State} (whole : 4 ≤ s.buf.length) (f : Flag) : Raises .frmDec s f ↔
    f = .hdr ∧ hdrBad s.buf = true ∨ f = .len ∧ lenBad s.buf = true ∨ f = .csum ∧ sumBad s.buf = true := by
  have sum : sumBad s.buf = true ↔ s.buf.drop (s.buf.length - 2) ≠ wordBytes (frameSum s.buf) := by
    rw [ne_eq, ← sumBad_eq_false_iff whole, Bool.not_eq_false]
  cases f with
  | hdr => simp [Raises, whole, hdrBad_iff_head? whole]
  | len => simp [Raises, lenBad, Nat.not_lt.mpr whole]
  | csum => simp [Raises, whole, sum, frameSum]
  | ill => simp [raises_ill_iff]
  | _ => simp [Raises]

/-! ### The flags a transaction leaves (spec 60 R191, R198, R200) -/

/-- A flag's mask, added under a condition, adds the bit of that flag and of no other (spec 10 R30). -/
theorem getLsbD_maskIf (f g : Flag) (p : Prop) [Decidable p] :
    (if p then g.mask else 0x00).getLsbD f.bit = true ↔ f = g ∧ p := by
  have same : f.bit = g.bit ↔ f = g := ⟨Flag.bit_injective f g, congrArg Flag.bit⟩
  rw [getLsbD_ite_zero, Flag.mask_getLsbD g _ f.bit_lt, Bool.and_eq_true, decide_eq_true_iff, decide_eq_true_iff, same,
    and_comm]

/-- `SetsDetected i s u`: the flags set in `u` are those set in `s` and those whose cause `i` detects in `s`. -/
def SetsDetected (i : Instr) (s u : State) : Prop :=
  ∀ f : Flag, u.err.getLsbD f.bit = true ↔ Raises i s f ∨ s.err.getLsbD f.bit = true

theorem setsDetected_of_mask {i : Instr} {s u : State} (m : Byte) (err : u.err = s.err ||| m)
    (causes : ∀ f, Raises i s f ↔ m.getLsbD f.bit = true) : SetsDetected i s u := by
  intro f
  rw [err, BitVec.getLsbD_or, Bool.or_eq_true, causes, or_comm]

theorem setsDetected_of_raise {i : Instr} {s u : State} (g : Flag) (err : u.err = s.err ||| g.mask)
    (causes : ∀ f, Raises i s f ↔ f = g) : SetsDetected i s u :=
  setsDetected_of_mask g.mask err fun f => by simpa [causes] using (getLsbD_maskIf f g True).symm

theorem setsDetected_of_kept {i : Instr} {s u : State} (err : u.err = s.err) (quiet : ∀ f, ¬ Raises i s f) :
    SetsDetected i s u := by
  intro f
  rw [err, or_iff_right (quiet f)]

theorem ecbCommand_setsDetected (g : Key → Block → Block) {i : Instr} (cipher : i = .ecbEnc ∨ i = .ecbDec) (s : State) :
    SetsDetected i s (ecbCommand g s) := by
  have causes := raises_ecb_iff cipher s
  rcases ecbCommand_cases g s with ⟨-, heq⟩ | ⟨key, whole, heq⟩ <;> rw [heq]
  · refine setsDetected_of_mask _ (BitVec.or_assoc ..) fun f => ?_
    simp only [causes, BitVec.getLsbD_or, Bool.or_eq_true, getLsbD_maskIf, keyBad_iff, blockBad_iff]
  · exact setsDetected_of_kept rfl fun f => by simp [causes, key, whole]

theorem frameEncode_setsDetected (s : State) : SetsDetected .frmEnc s (frameEncode s) := by
  rcases frameEncode_cases s with ⟨long, heq⟩ | ⟨fits, heq⟩ <;> rw [heq]
  · exact setsDetected_of_raise .ovf rfl fun f => (raises_frmEnc_iff s f).trans (and_iff_left long)
  · exact setsDetected_of_kept rfl fun f => by simp [raises_frmEnc_iff, fits]

theorem frameDecode_setsDetected (s : State) : SetsDetected .frmDec s (frameDecode s) := by
  rcases frameDecode_cases s with ⟨short, heq⟩ | ⟨whole, -, heq⟩ | ⟨whole, hdr, len, sum, heq⟩ <;> rw [heq]
  · exact setsDetected_of_raise .len rfl (raises_frmDec_short_iff short)
  · refine setsDetected_of_mask _ ((BitVec.or_assoc ..).trans (BitVec.or_assoc ..)) fun f => ?_
    simp only [raises_frmDec_iff whole, BitVec.getLsbD_or, Bool.or_eq_true, getLsbD_maskIf]
  · exact setsDetected_of_kept rfl fun f => by simp [raises_frmDec_iff whole, hdr, len, sum]

theorem frameTrim_setsDetected (s : State) : SetsDetected .frmTrim s (frameTrim s) := by
  rcases frameTrim_cases s with ⟨bad, heq⟩ | ⟨two, fits, heq⟩ <;> rw [heq]
  · exact setsDetected_of_raise .len rfl fun f => (raises_frmTrim_iff s f).trans (and_iff_left bad)
  · exact setsDetected_of_kept rfl fun f raised => by
      obtain ⟨-, bad⟩ := (raises_frmTrim_iff s f).mp raised
      omega

theorem effect_wrBufData_setsDetected (v : Byte) (s : State) :
    SetsDetected (.wrBufData v) s (effect (.wrBufData v) s) := by
  by_cases full : s.buf.length = 272
  · exact setsDetected_of_raise .ovf (by simp [effect, bufFull, full]) fun f => by simp [raises_wrBufData_iff, full]
  · exact setsDetected_of_kept (by simp [effect, bufFull, full]) fun f => by simp [raises_wrBufData_iff, full]

theorem effect_rdBufData_setsDetected (s : State) : SetsDetected .rdBufData s (effect .rdBufData s) := by
  by_cases done : s.rptr = s.buf.length
  · exact setsDetected_of_raise .unf (by simp [effect, readEnd, done]) fun f => by simp [raises_rdBufData_iff, done]
  · exact setsDetected_of_kept (by simp [effect, readEnd, done]) fun f => by simp [raises_rdBufData_iff, done]

theorem effect_illegal (op : Byte) (s : State) : ∀ i ∈ illegalRows op, effect i s = s.raise .ill := by
  simp only [List.forall_mem_cons]
  exact ⟨rfl, rfl, rfl, rfl, rfl, rfl, rfl, rfl, rfl, rfl, rfl, rfl, rfl, List.forall_mem_nil _⟩

theorem effect_illegal_setsDetected {i : Instr} (wf : i.wf = true) {op : Byte} (row : i ∈ illegalRows op) (s : State) :
    SetsDetected i s (effect i s) :=
  setsDetected_of_raise .ill (congrArg State.err (effect_illegal op s i row)) (raises_illegal_iff wf row s)

/-- A transaction that neither resets nor clears flags sets those it detects, and keeps the others (spec 60 R198). -/
theorem effect_setsDetected {i : Instr} (wf : i.wf = true) (s : State) (reset : i ≠ .srst) (clear : ∀ m, i ≠ .wrErr m) :
    SetsDetected i s (effect i s) := by
  cases i
  case srst => exact absurd rfl reset
  case wrErr m => exact absurd rfl (clear m)
  case ecbEnc => exact ecbCommand_setsDetected Config.E (.inl rfl) s
  case ecbDec => exact ecbCommand_setsDetected Config.D (.inr rfl) s
  case frmEnc => exact frameEncode_setsDetected s
  case frmDec => exact frameDecode_setsDetected s
  case frmTrim => exact frameTrim_setsDetected s
  case wrBufData v => exact effect_wrBufData_setsDetected v s
  case rdBufData => exact effect_rdBufData_setsDetected s
  case ill0505 => exact effect_illegal_setsDetected wf (op := 0x05) (by simp) s
  case ill0607 op | ill080F op | ill1213 op | ill1417 op | ill181F op | ill2223 op | ill2427 op | ill282F op | ill3437 op
      | ill383F op | ill407F op | ill80FF op => exact effect_illegal_setsDetected wf (op := op) (by simp) s
  case wrKeyData v => exact setsDetected_of_kept (s.putKeyByte_err v) (not_raises (by simp) (by simp) (by simp) s)
  all_goals exact setsDetected_of_kept rfl (not_raises (by simp) (by simp) (by simp) s)

/-- Settles O55: `SRST` and a write of `ERR` detect nothing; every other transaction by `effect_setsDetected`. -/
theorem flagsAfterTransaction : Obligations.FlagsAfterTransaction := by
  intro i s t f wf h
  obtain rfl := (exec_eq_next i s t).mp h
  by_cases reset : i = .srst
  · subst reset
    have quiet : ¬ Raises .srst s f := not_raises (by simp) (by simp) (by simp) s f
    simp [effect, quiet]
  · by_cases clear : ∃ m, i = .wrErr m
    · obtain ⟨m, rfl⟩ := clear
      have quiet : ¬ Raises (.wrErr m) s f := not_raises (by simp) (by simp) (by simp) s f
      have err : (effect (.wrErr m) s).err.getLsbD f.bit = (s.err.getLsbD f.bit && !m.getLsbD f.bit) :=
        clearFlags_err_getLsbD s m f.bit_lt
      simp [err, quiet]
    · rw [not_exists] at clear
      refine (effect_setsDetected wf s reset clear f).trans ?_
      simp [reset, clear]

/-! ### A failing transaction changes only `err` (spec 60 R199) -/

/-- A rejected `FRM.DEC` leaves the recomputed checksum when the buffer is long enough to have one (spec 43 R164). -/
theorem exec_frmDec_of_raises {s : State} {f : Flag} (raised : Raises .frmDec s f) : ∃ e : Byte,
    exec .frmDec s = .next { s with
      err := e,
      crc := if 4 ≤ s.buf.length then checksum (s.buf.take (s.buf.length - 2)) else s.crc,
      rdata := none } := by
  by_cases whole : 4 ≤ s.buf.length
  · have bad : (hdrBad s.buf || lenBad s.buf || sumBad s.buf) = true := by
      rcases (raises_frmDec_iff whole f).mp raised with ⟨-, bad⟩ | ⟨-, bad⟩ | ⟨-, bad⟩ <;> simp [bad]
    rw [exec_frmDec_of_bad whole bad, if_pos whole]
    exact ⟨_, rfl⟩
  · rw [exec_frmDec_of_short (Nat.not_le.mp whole), if_neg whole]
    exact ⟨_, rfl⟩

theorem exec_ecb_of_bad {i : Instr} (cipher : i = .ecbEnc ∨ i = .ecbDec) {s : State}
    (bad : s.keyLen ≠ 16 ∨ s.buf.length % 16 ≠ 0) : ∃ e : Byte, exec i s = .next { s with err := e, rdata := none } := by
  rcases cipher with rfl | rfl
  · exact ⟨_, (exec_eq .ecbEnc s).trans (by rw [effect, ecbCommand_of_bad Config.E bad]; rfl)⟩
  · exact ⟨_, (exec_eq .ecbDec s).trans (by rw [effect, ecbCommand_of_bad Config.D bad]; rfl)⟩

/-- Settles O56: each row of R191's table is the failing branch of its instructions. -/
theorem failingTransactionChangesOnlyErr : Obligations.FailingTransactionChangesOnlyErr := by
  intro i s f raised
  cases f with
  | hdr | csum =>
    obtain rfl := raised.1
    simpa using exec_frmDec_of_raises raised
  | len =>
    rcases raised with cause | ⟨rfl, bad⟩
    · obtain rfl := cause.1
      simpa using exec_frmDec_of_raises (f := .len) (.inl cause)
    · exact ⟨_, exec_frmTrim_of_bad bad⟩
  | keylen =>
    obtain ⟨rfl | rfl, key⟩ := raised
    · exact exec_ecb_of_bad (.inl rfl) (.inl key)
    · exact exec_ecb_of_bad (.inr rfl) (.inl key)
  | blklen =>
    obtain ⟨rfl | rfl, part⟩ := raised
    · exact exec_ecb_of_bad (.inl rfl) (.inr part)
    · exact exec_ecb_of_bad (.inr rfl) (.inr part)
  | ovf =>
    rcases raised with ⟨⟨v, rfl⟩, full⟩ | ⟨rfl, long⟩
    · exact ⟨_, exec_wrBufData_of_full v full⟩
    · exact ⟨_, exec_frmEnc_of_long long⟩
  | unf =>
    obtain ⟨rfl, done⟩ := raised
    exact ⟨_, exec_rdBufData_of_end done⟩
  | ill =>
    obtain ⟨op, illegal, decoded⟩ := raised
    have row : i ∈ illegalRows op := decoded ▸ decodeCommand_illegal illegal
    obtain ⟨other, -⟩ := illegalRows_other op i row
    have frmDec : i ≠ .frmDec := fun h => other (by simp [h])
    have rdBufData : i ≠ .rdBufData := fun h => other (by simp [h])
    refine ⟨s.err ||| 0x80, ?_⟩
    rw [if_neg fun h => frmDec h.1, if_neg rdBufData]
    exact exec_illegal op s i row

end Sys2Proof.Machine

/-! ## Family 70: reset and hazards. The pulse of the reset input, the idle block, and equal blocks under one key -/

namespace Sys2Proof.Machine

/-! ### The reset input and the idle block (spec 70 R220, R221) -/

/-- Nothing survives a pulse of the reset input but what the host presents next. -/
theorem State.hardReset_eq (s : State) : s.hardReset = { State.reset with pending := s.pending } := rfl

theorem step_of_hardReset {s : State} {rest : List BusInput} (h : s.pending = .hardReset :: rest) :
    step s = .next { State.reset with pending := rest } := by
  simp [step, takeInput, h, State.hardReset_eq]

theorem step_of_idle {s : State} (h : s.pending = []) : step s = .next s := by
  simp [step, takeInput, h]

/-- Settles O10: the two branches of the step that perform no transaction. -/
theorem hardResetAndIdleBus : Obligations.HardResetAndIdleBus :=
  ⟨fun _ _ h => step_of_hardReset h, fun _ h => step_of_idle h⟩

/-! ### No chaining (spec 42 R145, 70 R234) -/

/-- The block read from a sequence looks at its first sixteen bytes only. -/
theorem blockOf_take (bytes : List Byte) : blockOf (bytes.take 16) = blockOf bytes := by
  simp [blockOf, byteAt]

/-- Block `i` of the output is `f` of block `i` of the input, and depends on nothing else. -/
theorem ecbBlocks_block (f : Block → Block) {n i : Nat} (bytes : List Byte) (hi : i < n) :
    ((ecbBlocks f n bytes).drop (16 * i)).take 16 = (f (blockOf ((bytes.drop (16 * i)).take 16))).toList := by
  rw [blockOf_take]
  induction n generalizing bytes i with
  | zero => omega
  | succ n ih =>
    cases i with
    | zero => exact List.take_left' Vector.length_toList
    | succ i =>
      rw [ecbBlocks, Nat.mul_succ, Nat.add_comm, ← List.drop_drop, ← List.drop_drop,
        List.drop_left' Vector.length_toList, ih _ (Nat.lt_of_succ_lt_succ hi)]

/-- A block of the buffer that `ECB.ENC` leaves is a function of the key and of the block that stood there. -/
theorem exec_ecbEnc_block {s t : State} {i : Nat} (key : s.keyLen = 16) (whole : s.buf.length % 16 = 0)
    (hi : 16 * i < s.buf.length) (run : exec .ecbEnc s = .next t) :
    (t.buf.drop (16 * i)).take 16 = (Config.E s.key (blockOf ((s.buf.drop (16 * i)).take 16))).toList := by
  have left : t.buf = ecbBlocks (Config.E s.key) (s.buf.length / 16) s.buf := by
    rw [(exec_eq_next _ _ _).mp run, effect, ecbCommand_of_ready _ key whole]
  rw [left, ecbBlocks_block _ _ (by omega)]

/-- Settles O40: both enciphered blocks are the same function of the same key and the same block. -/
theorem equalBlocksEncipherEqually : Obligations.EqualBlocksEncipherEqually := by
  intro s s' t t' i i' key whole key' whole' sameKey hi hi' sameBlock run run'
  rw [exec_ecbEnc_block key whole hi run, exec_ecbEnc_block key' whole' hi' run', sameKey, sameBlock]

end Sys2Proof.Machine

/-! ## Other: the laws of the checksum (spec 41 R126)

One iteration is linear over exclusive or, and only shifts while the bit it tests is 0. So the eight iterations of a
byte move the high byte down and fold the low byte from 0, which is the byte-table form; the residues follow from it. -/

namespace Sys2Proof.Machine

/-! ### Linearity -/

theorem crcBit_xor (r q : Word16) : crcBit (r ^^^ q) = crcBit r ^^^ crcBit q := by
  have low : (r ^^^ q).getLsbD 0 = (r.getLsbD 0 ^^ q.getLsbD 0) := BitVec.getLsbD_xor
  have swap (x y p : Word16) : (x ^^^ y) ^^^ p = (x ^^^ p) ^^^ y := by ac_rfl
  have cancel (x y p : Word16) : x ^^^ y = (x ^^^ p) ^^^ (y ^^^ p) := by
    rw [BitVec.xor_comm y, ← BitVec.xor_assoc, BitVec.xor_assoc x, BitVec.xor_self, BitVec.xor_zero]
  rw [crcBit, crcBit, crcBit, low, BitVec.ushiftRight_xor_distrib]
  cases r.getLsbD 0 <;> cases q.getLsbD 0
  case false.false => rfl
  case false.true => exact BitVec.xor_assoc _ _ _
  case true.false => exact swap _ _ _
  case true.true => exact cancel _ _ _

theorem crcBits_xor (n : Nat) (r q : Word16) : crcBits n (r ^^^ q) = crcBits n r ^^^ crcBits n q := by
  induction n generalizing r q with
  | zero => rfl
  | succ n ih => rw [crcBits, crcBit_xor, ih, crcBits, crcBits]

theorem zext16_xor (a b : Byte) : zext16 (a ^^^ b) = zext16 a ^^^ zext16 b := BitVec.setWidth_xor

theorem crcStep_xor (c d : Word16) (a b : Byte) : crcStep (c ^^^ d) (a ^^^ b) = crcStep c a ^^^ crcStep d b := by
  rw [crcStep, crcStep, crcStep, ← crcBits_xor, zext16_xor]
  ac_rfl

/-! ### The byte-table form -/

/-- While the bits it tests are all 0, an iteration only shifts. -/
theorem crcBits_of_low_zero {n : Nat} {r : Word16} (low : ∀ i < n, r.getLsbD i = false) : crcBits n r = r >>> n := by
  induction n generalizing r with
  | zero => rfl
  | succ n ih =>
    have first : crcBit r = r >>> 1 := by simp only [crcBit, low 0 n.succ_pos]; rfl
    rw [crcBits, first, ih, ← BitVec.shiftRight_add, Nat.add_comm]
    intro i hi
    rw [BitVec.getLsbD_ushiftRight, Nat.add_comm]
    exact low (i + 1) (Nat.succ_lt_succ hi)

theorem ushiftRight_eight (w : Word16) : w >>> 8 = zext16 (hiByte w) := by
  ext i hi
  simpa [hiByte, zext16] using fun h => by have := BitVec.lt_of_getLsbD h; omega

theorem hiByte_xor_zext16 (w : Word16) (b : Byte) : hiByte (w ^^^ zext16 b) = hiByte w := by
  ext i hi
  simp [hiByte, zext16]

theorem loByte_xor_zext16_loByte (w : Word16) : loByte (w ^^^ zext16 (loByte w)) = 0x00 := by
  ext i hi
  simpa [loByte, zext16, hi] using fun _ => by omega

/-- A word is its two bytes, each in its place (spec 20 R54). -/
theorem word_eq_hiByte_xor_loByte (w : Word16) : w = (zext16 (hiByte w) <<< 8) ^^^ zext16 (loByte w) := by
  ext i hi
  rcases Nat.lt_or_ge i 8 with h | h
  · simp [zext16, loByte, BitVec.getLsbD_eq_getElem, h, hi]
  · simpa [zext16, hiByte, loByte, BitVec.getLsbD_eq_getElem, h, hi, Nat.not_lt.mpr h] using fun _ => by omega

/-- The high byte passes the eight iterations unchanged, as none of them tests a bit of it. -/
theorem crcBits_eight_high (b : Byte) : crcBits 8 (zext16 b <<< 8) = zext16 b := by
  rw [crcBits_of_low_zero fun i hi => by simp [hi]]
  refine BitVec.eq_of_toNat_eq ?_
  simp only [zext16, BitVec.toNat_ushiftRight, BitVec.toNat_shiftLeft, BitVec.toNat_setWidth, Nat.shiftLeft_eq,
    Nat.shiftRight_eq_div_pow]
  omega

theorem crcStep_zero (b : Byte) : crcStep 0x0000 b = crcBits 8 (zext16 b) := by
  rw [crcStep]
  exact congrArg _ BitVec.zero_xor

theorem crcBits_eight (w : Word16) : crcBits 8 w = zext16 (hiByte w) ^^^ crcStep 0x0000 (loByte w) := by
  rw [crcStep_zero]
  nth_rw 1 [word_eq_hiByte_xor_loByte w, crcBits_xor, crcBits_eight_high]

theorem crcStep_eq_table (c : Word16) (b : Byte) :
    crcStep c b = (c >>> 8) ^^^ crcStep 0x0000 (loByte (c ^^^ zext16 b)) := by
  rw [crcStep, crcBits_eight, hiByte_xor_zext16, ushiftRight_eight]

/-! ### The residue -/

/-- The low byte of the register, folded in, leaves its high byte. -/
theorem crcStep_loByte (c : Word16) : crcStep c (loByte c) = zext16 (hiByte c) := by
  rw [crcStep_eq_table, loByte_xor_zext16_loByte, ushiftRight_eight]
  exact BitVec.xor_zero

theorem crcStep_zext16 (b : Byte) : crcStep (zext16 b) b = 0x0000 := by
  rw [crcStep, BitVec.xor_self]
  rfl

theorem crcBytes_append (c : Word16) (a b : List Byte) : crcBytes c (a ++ b) = crcBytes (crcBytes c a) b := by
  simp only [crcBytes_eq_foldl, List.foldl_append]

/-- Settles O30, as the fold is the library's `List.foldl`. -/
theorem crcComposition : Obligations.CrcComposition := crcBytes_append

/-- Settles O31: the four entries are computed. -/
theorem crcTableForm : Obligations.CrcTableForm := ⟨crcStep_eq_table, by decide⟩

/-- Settles O32: past the sequence the register is the checksum, and each of its two bytes clears its own half. -/
theorem crcResidue : Obligations.CrcResidue := by
  rintro m _ rfl
  have low : crcBytes 0xFFFF (m ++ [loByte (checksum m)]) = zext16 (hiByte (checksum m)) :=
    (crcBytes_append _ _ _).trans (crcStep_loByte (checksum m))
  refine ⟨?_, low⟩
  calc crcBytes 0xFFFF (m ++ wordBytes (checksum m))
      = crcBytes 0xFFFF ((m ++ [loByte (checksum m)]) ++ [hiByte (checksum m)]) := by simp [wordBytes]
    _ = crcStep (zext16 (hiByte (checksum m))) (hiByte (checksum m)) := by rw [crcBytes_append, low]; rfl
    _ = 0x0000 := crcStep_zext16 _

/-- Settles O33: the flipped byte is another byte, and a fold tells sequences apart that differ in one byte. -/
theorem crcDetectsSingleBit : Obligations.CrcDetectsSingleBit := fun m k _ hk hb =>
  crcBytes_set_ne Config.crcInit hk (xor_bit_ne m[k] hb)

/-- Settles O34: an injection of a finite type into itself is a bijection. -/
theorem crcStepBijectiveAndLinear : Obligations.CrcStepBijectiveAndLinear :=
  ⟨fun b => Finite.injective_iff_bijective.mp (crcStep_register_injective b), crcStep_xor⟩

end Sys2Proof.Machine
